-- ==== Sys2Proof/Word.lean ====
section
/-! DEFINITION. The word types of the KAQ core block: fixed widths of rule R8, read as unsigned unless a rule says signed (R10). -/

namespace Sys2Proof

/-- A block register or a command word: 32 bits (R8). -/
abbrev Word := BitVec 32

/-- A bus payload unit (R8). -/
abbrev Byte := BitVec 8

/-- A 7-bit device address on the bus, "sevenBitAddress: integer 0–127" (R8, R61). -/
abbrev DevAddr := BitVec 7

/-- An 8-bit register offset inside a bus device, "registerOffset: integer 0–255" (R8, R61). -/
abbrev RegOffset := BitVec 8

/-- A general register number, G0..G7 (R22, R92). -/
abbrev GReg := Fin 8

end Sys2Proof
end

