-- ==== Sys2Proof/Config.lean ====
section
/-! DEFINITION. What is fixed for one instance of the block and what the spec leaves open: the parameter record P (R7) with the
signatures of R231, the shape of a bus transaction (R13), and the two free values: the parameters of a deployment nobody
has named, and what a Real bus answers (R62). -/

namespace Sys2Proof.Config

/-- The configuration value object Cfg (R39, R192): six register-level codes (R202). -/
structure SensorCfg where
  osT : BitVec 3
  osP : BitVec 3
  osH : BitVec 3
  filter : BitVec 3
  heatRes : Byte
  heatDur : Byte
deriving DecidableEq, Repr, Inhabited

/-- A coefficient record. The spec leaves the type OPEN ("a fixed set of named signed/unsigned integer fields"); this one holds
the reference field list of R232 and any further integer fields a deployment's layout has.
DESIGN CHOICE, safe: every function of at most 64 coefficient bytes factors through it (log entry 5). -/
structure Coef where
  t1 : Int
  t2 : Int
  t3 : Int
  p1 : Int
  p2 : Int
  p3 : Int
  p4 : Int
  p5 : Int
  p6 : Int
  p7 : Int
  p8 : Int
  p9 : Int
  p10 : Int
  h1 : Int
  h2 : Int
  h3 : Int
  h4 : Int
  h5 : Int
  h6 : Int
  h7 : Int
  rangeSwErr : Int
  others : List Int
deriving DecidableEq, Repr, Inhabited

/-- What RAW_EXTRACT gives (R204): KAQ's RawSample, "unsigned integers straight off the bus" (R34). -/
structure Extracted where
  rawT : Nat
  rawP : Nat
  rawH : Nat
  rawG : Nat
  gasRange : Nat
  heatStab : Nat
deriving DecidableEq, Repr, Inhabited

/-- One entry of CFG_WRITES or TRIGGER_WRITES: a register offset and the byte for it (R7). -/
abbrev RegWrite := RegOffset × Byte

/-- The parameter record P (R7), with the compensation signatures of R231 (`none` is `undef`). -/
structure Params where
  rtcAddr : DevAddr
  snsAddr : DevAddr
  dispAddr : DevAddr
  memAddr : DevAddr
  rtcTimeBase : RegOffset
  rtcSetBits : Vector Byte 7
  rtcDataMask : Vector Byte 7
  chipIdReg : RegOffset
  chipIdValue : Byte
  softResetReg : RegOffset
  softResetCmd : Byte
  cfgWrites : SensorCfg → List RegWrite
  triggerWrites : SensorCfg → List RegWrite
  statusReg : RegOffset
  readyMask : Byte
  rawBase : RegOffset
  rawLen : Nat
  rawExtract : List Byte → Extracted
  calBase : RegOffset
  calLen : Nat
  calDecode : List Byte → Coef
  compT : Coef → Word → Option (Int × Int)
  compP : Coef → Int → Word → Option Int
  compH : Coef → Int → Word → Option Int
  compG : Coef → Word → BitVec 4 → Option Int
  aqIndex : Int → Word → Word → Word → Word
  /-- POLL_DELAY and POST_RESET_WAIT, durations; no rule depends on them (R320) -/
  pollDelay : Nat
  postResetWait : Nat
deriving Inhabited

/-- The constraints that R7 puts on the parameter record. -/
structure Params.Legal (p : Params) : Prop where
  distinct : [p.rtcAddr, p.snsAddr, p.dispAddr, p.memAddr].Nodup
  timeBlock : p.rtcTimeBase.toNat + 7 ≤ 256
  cfgWrites_length : ∀ c, 1 ≤ (p.cfgWrites c).length ∧ (p.cfgWrites c).length ≤ 16
  triggerWrites_length : ∀ c, (p.triggerWrites c).length ≤ 4
  readyMask_ne : p.readyMask ≠ 0
  rawLen_range : 1 ≤ p.rawLen ∧ p.rawLen ≤ 32
  rawBlock : p.rawBase.toNat + p.rawLen ≤ 256
  calLen_range : 1 ≤ p.calLen ∧ p.calLen ≤ 64
  calBlock : p.calBase.toNat + p.calLen ≤ 256

/-- Which parameter record an instance of the block has. -/
inductive ParamSel where
  /-- TCFG, the spec's test configuration (95_test_vectors.md section 1) -/
  | tcfg
  /-- a BME688 deployment: MCP7940N time registers (G5) and the BME688 gas formula (R238), else as TCFG (log entry 18) -/
  | bme688
  /-- a BME680 deployment: MCP7940N time registers (G5), RUN_GAS and the gas bytes of a BME680 (R203, R204), else as TCFG
  (log entry 18) -/
  | bme680
  /-- deployment number `n`: any parameter record that R7 admits, none of its values known -/
  | deployment (n : Nat)
deriving DecidableEq, Repr

/-- A bus transaction as the block issues it (R13). -/
inductive Request where
  /-- `MemWrite(addr:reg, len(bytes), bytes)` -/
  | write (addr : DevAddr) (reg : RegOffset) (bytes : List Byte)
  /-- `MemRead(addr:reg, n)` -/
  | read (addr : DevAddr) (reg : RegOffset) (n : Nat)
deriving DecidableEq, Repr

/-- The bus's answer to one transaction (R13): NAK, or ACK with the bytes of a read (of any length; none for a write). -/
inductive Answer where
  | nak
  | ack (bytes : List Byte)
deriving DecidableEq, Repr, Inhabited

/-- One completed transaction. -/
structure Transaction where
  request : Request
  answer : Answer
deriving DecidableEq, Repr

/-- FREE VALUE: the parameter record of a deployment. Nothing is known of it; `Machine.paramsOf` keeps it inside R7's
constraints. -/
opaque deployment : Nat → Params

/-- FREE VALUE: what a Real bus answers to a transaction after a given history of transactions, newest first: "the oracle is
unconstrained", "answers may depend on anything that happened before" (R62). -/
opaque realAnswer : List Transaction → Request → Answer

end Sys2Proof.Config
end

