-- ==== Sys2Proof/Syntax.lean ====
section
/-! DEFINITION. The 26 commands of the KAQ core block (R94), one constructor per row of spec/opcode_table.json, in the table's
order. Operands are those of R91-R93. -/

namespace Sys2Proof

/-- One decoded command. A command is the block's analogue of an instruction (R15). -/
inductive Instr where
  /-- NOP (R111) -/
  | nop
  /-- LDI Gd, imm16 (R112) -/
  | ldi (rd : GReg) (imm : BitVec 16)
  /-- LUI Gd, imm16 (R113) -/
  | lui (rd : GReg) (imm : BitVec 16)
  /-- GET Gd, idx (R115) -/
  | get (rd : GReg) (idx : BitVec 8)
  /-- PUT idx, Gs (R120) -/
  | put (idx : BitVec 8) (rs : GReg)
  /-- BCDENC Gd, Gs (R161) -/
  | bcdenc (rd rs : GReg)
  /-- BCDDEC Gd, Gs (R162) -/
  | bcddec (rd rs : GReg)
  /-- WDAY Gd (R163) -/
  | wday (rd : GReg)
  /-- TVALID Gd (R164) -/
  | tvalid (rd : GReg)
  /-- TPACK (R165) -/
  | tpack
  /-- TUNPACK (R167) -/
  | tunpack
  /-- RTCRD (R175) -/
  | rtcrd
  /-- RTCSET (R181) -/
  | rtcset
  /-- SNSID (R195) -/
  | snsid
  /-- SNSRST (R198) -/
  | snsrst
  /-- SNSCFG (R201) -/
  | snscfg
  /-- SNSCAL (R208) -/
  | snscal
  /-- SNSACQ (R213) -/
  | snsacq
  /-- CMPT (R240) -/
  | cmpt
  /-- CMPP (R243) -/
  | cmpp
  /-- CMPH (R246) -/
  | cmph
  /-- CMPG (R249) -/
  | cmpg
  /-- CMPAQ (R252) -/
  | cmpaq
  /-- CMPALL (R255) -/
  | cmpall
  /-- I2CWR addr, reg, len (R132); `len` is the 6-bit byte count, 0..63 where the command is well formed -/
  | i2cwr (addr : DevAddr) (reg : RegOffset) (len : Nat)
  /-- I2CRD addr, reg, len (R135); `len` is the 6-bit byte count, 0..63 where the command is well formed -/
  | i2crd (addr : DevAddr) (reg : RegOffset) (len : Nat)
deriving DecidableEq, Repr

end Sys2Proof
end

