-- ==== Sys2Proof/Machine/State.lean ====
section
/-! DEFINITION. The state of the block (R20, R21), of the bus it is wired to (R62, R70) and of its host ports (R60), the reasons a
step can stop, and the state after reset (R300). -/

namespace Sys2Proof.Machine

open Sys2Proof.Config (Answer Transaction ParamSel SensorCfg)

/-- The error codes 0..8 that a command can complete with (R270). The reserved codes 9..15 are "never produced" and have no
constructor (U12). -/
inductive ErrCode where
  | ok | busError | identityMismatch | calibrationInvalid | notResponding | argRange | illegalCommand | sequence | compError
deriving DecidableEq, Repr

/-- The RTC state machine's states (R26). -/
inductive RtcState where
  | unchecked | valid | invalid | justSet
deriving DecidableEq, Repr

/-- KAQ's DeviceStatus, one for each chip (R27). Codes 5..7 are "never written" and have no constructor (U12). -/
inductive DeviceStatus where
  | uninitialized | ready | notResponding | identityMismatch | calibrationInvalid
deriving DecidableEq, Repr

/-- The sensor state machine's states (R28). Codes 6 and 7 are "never written" and have no constructor (U12). -/
inductive SnsState where
  | powerOn | identityChecked | reset | configured | ready | halted
deriving DecidableEq, Repr

/-- The flag register FLAGS, bits 0 to 6 in this order (R29). Its bits 31..7 read 0, so they hold nothing. -/
structure Flags where
  calValid : Bool
  rawValid : Bool
  tDone : Bool
  pDone : Bool
  hDone : Bool
  gDone : Bool
  aqDone : Bool
deriving DecidableEq, Repr

/-- The time staging registers TIME_SEC .. TIME_YEAR: 32-bit registers that store whatever is written (R33). -/
structure RtcTime where
  second : Word
  minute : Word
  hour : Word
  weekday : Word
  day : Word
  month : Word
  year : Word
deriving DecidableEq, Repr

/-- The raw-sample registers RAW_T, RAW_P, RAW_H, RAW_G, RAW_GR [3:0] and RAW_HS [0] (R34). -/
structure RawSample where
  t : Word
  p : Word
  h : Word
  g : Word
  gr : BitVec 4
  hs : BitVec 1
deriving DecidableEq, Repr

/-- The output registers OUT_T, OUT_P, OUT_H, OUT_G and OUT_AQ [2:0] (R36). -/
structure Outputs where
  t : Word
  p : Word
  h : Word
  g : Word
  aq : BitVec 3
deriving DecidableEq, Repr

/-- The configuration registers: CFG_EPOCH [15:0] (R37), CFG_MAXRETRY [7:0] (R38), the sensor configuration object (R39), the
bucket boundaries CFG_AQB0..6 and their number CFG_AQN [2:0] (R40). -/
structure CfgRegs where
  epoch : BitVec 16
  maxRetry : BitVec 8
  sensor : SensorCfg
  aqb : Vector Word 7
  aqn : BitVec 3
deriving DecidableEq, Repr

/-- The Simulated bus's MAP: (address, byte) pairs, addresses strictly rising, no entry equal to `Memory.unlisted`. The byte of
register `r` of device `a` stands at address 256 a + r. -/
abbrev Memory := List Host.Cell

/-- The two implementations of the bus (R15). A Real bus answers with whatever its environment gives: `answers` are the
answers to the next transactions, and after them the free value `Config.realAnswer` (log entry 4). -/
inductive BusKind where
  | simulated
  | real (answers : List Answer)
deriving DecidableEq, Repr

/-- The bus space, external to the block (R62): the Simulated bus's PRESENT, MAP and FAULT (R70), and the transactions made so
far, newest first. -/
structure Bus where
  kind : BusKind
  present : List DevAddr
  map : Memory
  fault : Bool
  log : List Transaction
deriving DecidableEq, Repr

/-- What the test harness does between commands (R70, R74), and what it lets a Real bus answer next (R62).
DESIGN CHOICE: `answerNext` is the model's own, no rule names it (log entry 4). -/
inductive HarnessOp where
  | setPresent (devices : List DevAddr)
  | seed (addr : DevAddr) (reg : RegOffset) (value : Byte)
  | setFault (on : Bool)
  | answerNext (answers : List Answer)
deriving DecidableEq, Repr

/-- What the outside does to the block between commands, one at a time (R60, R85): the host's three accesses, the reset input
(R300) and the test harness of the bus. -/
inductive PortOp where
  /-- `HostIssue(w)` -/
  | issue (w : Word)
  /-- `HostRead(idx)` -/
  | read (idx : BitVec 8)
  /-- `HostWrite(idx, v)` -/
  | write (idx : BitVec 8) (v : Word)
  /-- the power-on or external reset input -/
  | reset
  | harness (op : HarnessOp)
deriving DecidableEq, Repr

/-- The block (the fields `g` to `buf`, R20) and what surrounds it: the bus, the parameter record this block was built with
(R7), and the host port's pending accesses and last answer. -/
structure State where
  /-- G0..G7 (R22) -/
  g : Vector Word 8
  /-- ERR (R24) -/
  err : ErrCode
  /-- ERRMASK, bit k for code k (R25) -/
  errmask : BitVec 16
  /-- RTC_STATE (R26) -/
  rtcState : RtcState
  /-- RTC_DEV (R27) -/
  rtcDev : DeviceStatus
  /-- SNS_STATE (R28) -/
  snsState : SnsState
  /-- SNS_DEV (R27) -/
  snsDev : DeviceStatus
  /-- FLAGS (R29) -/
  flags : Flags
  /-- LAST_POLLS (R32) -/
  lastPolls : BitVec 8
  /-- TIME_* (R33) -/
  time : RtcTime
  /-- RAW_* (R34) -/
  raw : RawSample
  /-- T_FINE (R35) -/
  tFine : Word
  /-- OUT_* (R36) -/
  out : Outputs
  /-- CFG_* (R37-R40) -/
  cfg : CfgRegs
  /-- CALBUF[0..63] (R41) -/
  calbuf : Vector Byte 64
  /-- BUF[0..31] (R42) -/
  buf : Vector Byte 32
  /-- the bus and everything on it: not block state (R62) -/
  bus : Bus
  /-- MODEL'S OWN: which parameter record this block was built with. No step changes it (R7). -/
  paramSel : ParamSel
  /-- MODEL'S OWN: the host's and harness's accesses still to come, next one first (R60, R80) -/
  port : List PortOp
  /-- MODEL'S OWN: the value the host register port answered to the last HostRead (R44), none before the first -/
  hostData : Option Word
deriving DecidableEq, Repr

/-- Why the machine would stop with a fault. The spec has no such case (log entry 16): "Every command completes with exactly one error code"
(R270), "No failure stops the block" (R273), and the block has no trap (R276). So there is no constructor: nothing raises a
fault. This is safe: it claims no stop. -/
inductive Fault where
deriving DecidableEq, Repr

/-- Why the model would refuse a command. -/
inductive Refusal where
  /-- Raised only by an arm of `exec` whose command has no meaning yet; no arm raises it now. Safe: the model would stop where
  the block goes on. -/
  | notModelled (mnemonic : String)
deriving DecidableEq, Repr

/-- The Simulated bus before a harness touches it: no device present, nothing seeded, FAULT false (R70). -/
def Bus.empty : Bus := { kind := .simulated, present := [], map := [], fault := false, log := [] }

/-- FLAGS with every bit 0. -/
def Flags.clear : Flags :=
  { calValid := false, rawValid := false, tDone := false, pDone := false, hDone := false, gDone := false, aqDone := false }

/-- A block after reset on a given bus and with given parameters: every register at the reset value of R21 and R300. -/
def State.resetOn (sel : ParamSel) (bus : Bus) : State where
  g := Vector.replicate 8 0
  err := .ok
  errmask := 0
  rtcState := .unchecked
  rtcDev := .uninitialized
  snsState := .powerOn
  snsDev := .uninitialized
  flags := Flags.clear
  lastPolls := 0
  time := { second := 0, minute := 0, hour := 0, weekday := 0, day := 0, month := 0, year := 0 }
  raw := { t := 0, p := 0, h := 0, g := 0, gr := 0, hs := 0 }
  tFine := 0
  out := { t := 0, p := 0, h := 0, g := 0, aq := 0 }
  cfg := { epoch := 2024, maxRetry := 10, aqb := Vector.replicate 7 0, aqn := 0,
           sensor := { osT := 0, osP := 0, osH := 0, filter := 0, heatRes := 0, heatDur := 0 } }
  calbuf := Vector.replicate 64 0
  buf := Vector.replicate 32 0
  bus := bus
  paramSel := sel
  port := []
  hostData := none

/-- The machine right after reset (R300), waiting for its first command (R302). The bus and the parameters are no part of a
reset; here they are the Simulated bus with no device and TCFG.
DESIGN CHOICE, unsafe for a claim about a run from this state alone (log entries 1 and 2): `State.resetOn` has them free. -/
def State.reset : State := State.resetOn .tcfg Bus.empty

end Sys2Proof.Machine
end

