-- ==== Sys2Proof/Machine/Flags.lean ====
section
/-! DEFINITION. The flag register FLAGS: its word view, a host write, and the staling event (R29-R31, R40). -/

namespace Sys2Proof.Machine

/-- One bit of a word. -/
def bitWord (b : Bool) (k : Nat) : Word := if b then 1#32 <<< k else 0

/-- FLAGS as it reads: bit k as R29 numbers it, bits 31..7 zero. -/
def Flags.toWord (f : Flags) : Word :=
  bitWord f.calValid 0 ||| bitWord f.rawValid 1 ||| bitWord f.tDone 2 ||| bitWord f.pDone 3 ||| bitWord f.hDone 4 |||
    bitWord f.gDone 5 ||| bitWord f.aqDone 6

/-- The staling event: bits 2..6 are cleared (R31). -/
def Flags.stale (f : Flags) : Flags :=
  { f with tDone := false, pDone := false, hDone := false, gDone := false, aqDone := false }

/-- A write of `v` to FLAGS: bits 0 and 1 are taken from `v`, bits 2..6 are cleared (R30). -/
def Flags.ofWrite (v : Word) : Flags :=
  Flags.stale { Flags.clear with calValid := v.getLsbD 0, rawValid := v.getLsbD 1 }

/-- SNSRST makes coefficients and sample stale: CAL_VALID, RAW_VALID and bits 2..6 are cleared (R198). -/
def Flags.invalidate (f : Flags) : Flags := Flags.stale { f with calValid := false, rawValid := false }

/-- A write to a bucket boundary or to CFG_AQN clears AQ_DONE alone (R40). -/
def Flags.staleAq (f : Flags) : Flags := { f with aqDone := false }

end Sys2Proof.Machine
end

