-- ==== Sys2Proof/Machine/Arith.lean ====
section
/-! DEFINITION. The arithmetic primitives of the rules (R10, R11): exact integers, narrowed only where a rule says so, and the
assembly of multi-byte fields that only the parameters use (R67). -/

namespace Sys2Proof.Machine

/-- `asr(x, n)` is floor(x / 2^n) (R11). -/
def asr (x : Int) (n : Nat) : Int := x / 2 ^ n

/-- `x << n` is x * 2^n (R11). -/
def shl (x : Int) (n : Nat) : Int := x * 2 ^ n

/-- `tdiv(a, b)` is division truncated toward zero (R11). -/
def tdiv (a b : Int) : Int := Int.tdiv a b

/-- `wrap32(z)` is z modulo 2^32 (R10). -/
def wrap32 (z : Int) : Word := BitVec.ofInt 32 z

/-- `sext_32(v)` reads a word as two's complement (R10). -/
def sext32 (v : Word) : Int := v.toInt

/-- A natural number as a register pattern (R10). -/
def word (n : Nat) : Word := BitVec.ofNat 32 n

/-- Byte `i` of a block of bytes, 0 past its end. -/
def byteAt (c : List Byte) (i : Nat) : Byte := c.getD i 0

/-- An unsigned byte field. -/
def u8 (c : List Byte) (i : Nat) : Int := (byteAt c i).toNat

/-- A signed byte field. -/
def s8 (c : List Byte) (i : Nat) : Int := (byteAt c i).toInt

/-- The 16 bits of a two-byte field, least significant byte first. -/
def half (c : List Byte) (i : Nat) : BitVec 16 := byteAt c (i + 1) ++ byteAt c i

/-- An unsigned 16-bit field, least significant byte first. -/
def u16 (c : List Byte) (i : Nat) : Int := (half c i).toNat

/-- A signed 16-bit field, least significant byte first. -/
def s16 (c : List Byte) (i : Nat) : Int := (half c i).toInt

end Sys2Proof.Machine
end

