-- ==== Sys2Proof/Machine/Reference.lean ====
section
/-! DEFINITION. The spec's named parameter records: the test configuration TCFG (95_test_vectors.md section 1) with the reference
instantiations of R203, R204 and R232-R237, and two reference deployments with the MCP7940N time registers (G5), one with the
BME688 gas formula (R238). The spec marks their values as general knowledge and not normative; they are values of the open
parameters, never rules of the block. PRESUMED, as the spec marks them (log entry 17). -/

namespace Sys2Proof.Machine

open Sys2Proof.Config (Coef Extracted Params RegWrite SensorCfg)

/-- The ctrl_meas byte of R203: osrs_t in [7:5], osrs_p in [4:2], the mode in [1:0]. -/
def ctrlMeas (c : SensorCfg) (mode : Byte) : Byte :=
  (c.osT.zeroExtend 8 <<< 5) ||| (c.osP.zeroExtend 8 <<< 2) ||| mode

/-- The reference CFG_WRITES (R203), with RUN_GAS a parameter of it. -/
def refCfgWrites (runGas : Byte) (c : SensorCfg) : List RegWrite :=
  [(0x72, c.osH.zeroExtend 8), (0x75, c.filter.zeroExtend 8 <<< 2), (0x5A, c.heatRes), (0x64, c.heatDur), (0x71, runGas),
   (0x74, ctrlMeas c 0)]

/-- The reference TRIGGER_WRITES: one measurement in forced mode (R203). -/
def refTriggerWrites (c : SensorCfg) : List RegWrite := [(0x74, ctrlMeas c 1)]

/-- The reference RAW_EXTRACT for RAW_BASE 0x1D and RAW_LEN 17, with the gas bytes at `gas` and `gas + 1`: 15 for a BME688, 13
for a BME680 (R204). -/
def refRawExtract (gas : Nat) (s : List Byte) : Extracted :=
  let b := fun i => (byteAt s i).toNat
  { rawP := (b 2 <<< 12) ||| (b 3 <<< 4) ||| (b 4 >>> 4)
    rawT := (b 5 <<< 12) ||| (b 6 <<< 4) ||| (b 7 >>> 4)
    rawH := (b 8 <<< 8) ||| b 9
    rawG := (b gas <<< 2) ||| (b (gas + 1) >>> 6)
    gasRange := b (gas + 1) &&& 0x0F
    heatStab := (b (gas + 1) >>> 4) &&& 1 }

/-- The TCFG CAL_DECODE: 31 contiguous bytes, fields least significant byte first (95_test_vectors.md section 1). -/
def tcfgCalDecode (c : List Byte) : Coef :=
  { t1 := u16 c 0, t2 := s16 c 2, t3 := s8 c 4
    p1 := u16 c 5, p2 := s16 c 7, p3 := s8 c 9, p4 := s16 c 10, p5 := s16 c 12, p6 := s8 c 14, p7 := s8 c 15
    p8 := s16 c 16, p9 := s16 c 18, p10 := u8 c 20
    h1 := u16 c 21, h2 := u16 c 23, h3 := s8 c 25, h4 := s8 c 26, h5 := s8 c 27, h6 := u8 c 28, h7 := s8 c 29
    rangeSwErr := s8 c 30, others := [] }

/-- The reference COMP_T (R234): (t_fine, T). -/
def refCompT (k : Coef) (rawT : Word) : Option (Int × Int) :=
  let var1 := asr rawT.toNat 3 - shl k.t1 1
  let var2 := asr (var1 * k.t2) 11
  let var3 := asr (asr (asr var1 1 * asr var1 1) 12 * shl k.t3 4) 14
  let tFine := var2 + var3
  some (tFine, asr (tFine * 5 + 128) 8)

/-- The divisor of the reference COMP_P (R235): its final `var1`, before the test for 0. -/
def refCompPDivisor (k : Coef) (tFine : Int) : Int :=
  let var1 := asr tFine 1 - 64000
  let var1 := asr (asr (asr var1 2 * asr var1 2) 13 * shl k.p3 5) 3 + asr (k.p2 * var1) 1
  let var1 := asr var1 18
  asr ((32768 + var1) * k.p1) 15

/-- The first `var2` of the reference COMP_P (R235). -/
def refCompPOffset (k : Coef) (tFine : Int) : Int :=
  let var1 := asr tFine 1 - 64000
  let var2 := asr (asr (asr var1 2 * asr var1 2) 11 * k.p6) 2
  let var2 := var2 + shl (var1 * k.p5) 1
  asr var2 2 + shl k.p4 16

/-- The reference COMP_P (R235), in pascal; undefined where its divisor is 0. -/
def refCompP (k : Coef) (tFine : Int) (rawP : Word) : Option Int :=
  let div := refCompPDivisor k tFine
  if div = 0 then none
  else
    let pc := (1048576 - (rawP.toNat : Int) - asr (refCompPOffset k tFine) 12) * 3125
    let pc := if pc ≥ 0x40000000 then shl (tdiv pc div) 1 else tdiv (shl pc 1) div
    let var1 := asr (k.p9 * asr (asr pc 3 * asr pc 3) 13) 12
    let var2 := asr (asr pc 2 * k.p8) 13
    let var3 := asr (asr pc 8 * asr pc 8 * asr pc 8 * k.p10) 17
    some (pc + asr (var1 + var2 + var3 + shl k.p7 7) 4)

/-- The reference COMP_H (R236), in 0.001 percent, clamped to 0..100000. -/
def refCompH (k : Coef) (tFine : Int) (rawH : Word) : Option Int :=
  let ts := asr (tFine * 5 + 128) 8
  let var1 := (rawH.toNat : Int) - k.h1 * 16 - asr (tdiv (ts * k.h3) 100) 1
  let var2 := asr (k.h2 * (tdiv (ts * k.h4) 100 + tdiv (asr (ts * tdiv (ts * k.h5) 100) 6) 100 + shl 1 14)) 10
  let var3 := var1 * var2
  let var4 := asr (shl k.h6 7 + tdiv (ts * k.h7) 100) 4
  let var5 := asr (asr var3 14 * asr var3 14) 10
  let var6 := asr (var4 * var5) 1
  let h := asr (asr (var3 + var6) 10 * 1000) 12
  some (min 100000 (max 0 h))

/-- LUT1 of the reference COMP_G (R237). -/
def gasLut1 : List Int :=
  [2147483647, 2147483647, 2147483647, 2147483647, 2147483647, 2126008810, 2147483647, 2130303777,
   2147483647, 2147483647, 2143188679, 2136746228, 2147483647, 2126008810, 2147483647, 2147483647]

/-- LUT2 of the reference COMP_G (R237). -/
def gasLut2 : List Int :=
  [4096000000, 2048000000, 1024000000, 512000000, 255744255, 127110228, 64000000, 32258064,
   16016016, 8000000, 4000000, 2000000, 1000000, 500000, 250000, 125000]

/-- The reference COMP_G, lookup-table form (R237), in ohm; undefined where its divisor is 0. -/
def refCompG (k : Coef) (rawG : Word) (gasRange : BitVec 4) : Option Int :=
  let var1 := asr ((1340 + 5 * k.rangeSwErr) * gasLut1.getD gasRange.toNat 0) 16
  let var2 := shl rawG.toNat 15 - 16777216 + var1
  let var3 := asr (gasLut2.getD gasRange.toNat 0 * var1) 9
  if var2 = 0 then none else some (tdiv (var3 + asr var2 1) var2)

/-- The alternative COMP_G of a BME688, without a table (R238). The rule gives a value for rawG in 0..1023; where a wider raw
value makes its divisor 0 the function has no value, as R231's `undef`. DEDUCED (log entry 6). -/
def bme688CompG (_ : Coef) (rawG : Word) (gasRange : BitVec 4) : Option Int :=
  let var1 := asr 262144 gasRange.toNat
  let var2 := 4096 + 3 * ((rawG.toNat : Int) - 512)
  if var2 = 0 then none else some (tdiv (10000 * var1) var2 * 100)

/-- TCFG, "the spec's own test configuration" (95_test_vectors.md section 1). -/
def tcfg : Params :=
  { rtcAddr := 0x6F, snsAddr := 0x77, dispAddr := 0x3C, memAddr := 0x54
    rtcTimeBase := 0x00
    rtcSetBits := Vector.replicate 7 0x00
    rtcDataMask := Vector.replicate 7 0xFF
    chipIdReg := 0xD0, chipIdValue := 0x61
    softResetReg := 0xE0, softResetCmd := 0xB6
    cfgWrites := refCfgWrites 0x20
    triggerWrites := refTriggerWrites
    statusReg := 0x1D, readyMask := 0x80
    rawBase := 0x1D, rawLen := 17, rawExtract := refRawExtract 15
    calBase := 0x8A, calLen := 31, calDecode := tcfgCalDecode
    compT := refCompT, compP := refCompP, compH := refCompH, compG := refCompG
    aqIndex := fun _ _ _ g => g
    pollDelay := 0, postResetWait := 0 }

/-- A parameter record with the RTC parameter set of an MCP7940N (G5). -/
def mcp7940n (p : Params) : Params :=
  { p with
    rtcSetBits := #v[0x80, 0x00, 0x00, 0x08, 0x00, 0x00, 0x00]
    rtcDataMask := #v[0x7F, 0x7F, 0x3F, 0x07, 0x3F, 0x1F, 0xFF] }

/-- A BME688 deployment: the RTC parameter set of G5 and the gas formula of R238, else as TCFG. DESIGN CHOICE (log entry 18). -/
def bme688Params : Params := { mcp7940n tcfg with compG := bme688CompG }

/-- A BME680 deployment: the RTC parameter set of G5, RUN_GAS 0x10 (R203) and the gas bytes s[13] and s[14] (R204), else as
TCFG. DESIGN CHOICE (log entry 18). -/
def bme680Params : Params := { mcp7940n tcfg with cfgWrites := refCfgWrites 0x10, rawExtract := refRawExtract 13 }

end Sys2Proof.Machine
end

