-- ==== Sys2Proof/Machine/Params.lean ====
section
/-! DEFINITION. The parameter record of a block (R7): TCFG, a reference deployment, or an unknown deployment brought inside the
constraints of R7. -/

namespace Sys2Proof.Machine

open Sys2Proof.Config (Params ParamSel RegWrite SensorCfg)

/-- A device address apart from those already taken: `a` itself where it is free, else the next free one. -/
def freeAddr (taken : List DevAddr) (a : DevAddr) : DevAddr :=
  ([a, a + 1, a + 2, a + 3].find? (fun x => !taken.contains x)).getD a

/-- A block length inside 1..most. -/
def legalLen (most n : Nat) : Nat := min most (max 1 n)

/-- A register base from which `n` registers fit below 256. -/
def legalBase (base : RegOffset) (n : Nat) : RegOffset :=
  if base.toNat + n ≤ 256 then base else BitVec.ofNat 8 (256 - n)

/-- A list of 1 to 16 configuration writes. -/
def legalCfgWrites (l : List RegWrite) : List RegWrite :=
  match l.take 16 with
  | [] => [(0, 0)]
  | w :: ws => w :: ws

/-- A parameter record brought inside the constraints of R7. It leaves a legal record as it is, so every legal record can be the
record of a deployment. DESIGN CHOICE, safe (log entry 10). -/
def legalize (p : Params) : Params :=
  let sns := freeAddr [p.rtcAddr] p.snsAddr
  let disp := freeAddr [p.rtcAddr, sns] p.dispAddr
  let mem := freeAddr [p.rtcAddr, sns, disp] p.memAddr
  let rawLen := legalLen 32 p.rawLen
  let calLen := legalLen 64 p.calLen
  { p with
    snsAddr := sns
    dispAddr := disp
    memAddr := mem
    rtcTimeBase := legalBase p.rtcTimeBase 7
    cfgWrites := fun c => legalCfgWrites (p.cfgWrites c)
    triggerWrites := fun c => (p.triggerWrites c).take 4
    readyMask := if p.readyMask = 0 then 1 else p.readyMask
    rawLen := rawLen
    rawBase := legalBase p.rawBase rawLen
    calLen := calLen
    calBase := legalBase p.calBase calLen }

/-- The parameter record that a selection names (R7). -/
def paramsOf : ParamSel → Params
  | .tcfg => tcfg
  | .bme688 => bme688Params
  | .bme680 => bme680Params
  | .deployment n => legalize (Config.deployment n)

/-- The parameter record of this block (R7). -/
def State.params (s : State) : Params := paramsOf s.paramSel

end Sys2Proof.Machine
end

