-- ==== Sys2Proof/Machine/Ops.lean ====
section
/-! DEFINITION. The named operations of the machine: the Simulated bus's memory, one bus transaction, the register and buffer
updates, and the completion of a command with its error code, which is the block's only form of exception (R272, R276). -/

namespace Sys2Proof.Machine

open Sys2Proof.Config (Answer Request RegWrite Transaction)

/-! ### The Simulated bus's MAP (R70-R72) -/

/-- What an address that MAP does not list reads as: "`s[i] = 0x00` where MAP has no entry" (R72). -/
def Memory.unlisted : Byte := 0

/-- The number of byte registers of the bus space: 128 devices of 256 registers (R61). -/
def busSpaceSize : Nat := 32768

/-- The canonical form: addresses inside the bus space and strictly rising, no entry equal to what an unlisted one reads as.
DESIGN CHOICE, safe: an entry of MAP that holds 0x00 and no entry read alike (R72) and are one memory here (log entry 11). -/
abbrev Memory.wf (m : Memory) : Prop :=
  m.Pairwise (fun a b => a.1 < b.1) ∧ ∀ c ∈ m, c.1 < busSpaceSize ∧ c.2 ≠ Memory.unlisted

/-- The byte at an address (R72). -/
def Memory.read : Memory → Nat → Byte
  | [], _ => Memory.unlisted
  | (a, b) :: m, k => if a = k then b else Memory.read m k

/-- A new entry in front of a memory whose addresses all lie above it; none for the byte an unlisted address reads as. -/
def Memory.place (k : Nat) (b : Byte) (m : Memory) : Memory := if b = Memory.unlisted then m else (k, b) :: m

/-- Store a byte, keeping the canonical form (R71). -/
def Memory.write : Memory → Nat → Byte → Memory
  | [], k, b => Memory.place k b []
  | (a, c) :: m, k, b =>
    if k < a then Memory.place k b ((a, c) :: m)
    else if k = a then Memory.place k b m
    else (a, c) :: Memory.write m k b

/-- The address of byte `i` of a transaction at offset `reg` of device `addr`: register `reg + i` (R65). No transaction is
issued with reg + n > 256 (R65), so the offset never wraps.
DESIGN CHOICE, safe: the remainder only keeps the function total (log entry 7). -/
def busKey (addr : DevAddr) (reg : RegOffset) (i : Nat) : Nat := addr.toNat * 256 + (reg.toNat + i) % 256

/-- Store a block of bytes, the first at register `reg + i` (R71). -/
def Memory.writeBlock (m : Memory) (addr : DevAddr) (reg : RegOffset) : Nat → List Byte → Memory
  | _, [] => m
  | i, b :: bs => Memory.writeBlock (m.write (busKey addr reg i) b) addr reg (i + 1) bs

/-- The bytes of registers `reg .. reg + n - 1` (R72). -/
def Memory.readBlock (m : Memory) (addr : DevAddr) (reg : RegOffset) (n : Nat) : List Byte :=
  (List.range n).map (fun i => m.read (busKey addr reg i))

/-! ### Bus transactions (R13, R60-R75) -/

/-- The device a transaction addresses. -/
def Request.addr : Request → DevAddr
  | .write a _ _ => a
  | .read a _ _ => a

/-- The Simulated bus's answer: NAK while FAULT is true or where the device is not present (R71, R72, R74). -/
def Bus.simAnswer (b : Bus) (q : Request) : Answer :=
  if b.fault || !b.present.contains (Request.addr q) then .nak
  else
    match q with
    | .write _ _ _ => .ack []
    | .read a r n => .ack (b.map.readBlock a r n)

/-- What MAP becomes: an acknowledged write stores its bytes, nothing else changes it (R71, R72). -/
def Bus.simStore (b : Bus) (q : Request) : Memory :=
  match q, b.simAnswer q with
  | .write a r bs, .ack _ => b.map.writeBlock a r 0 bs
  | .write _ _ _, .nak => b.map
  | .read _ _ _, _ => b.map

/-- The answer the bus gives to a transaction now: the Simulated bus by R71-R74, a Real bus as its environment has it
(R62). -/
def Bus.answer (b : Bus) (q : Request) : Answer :=
  match b.kind with
  | .simulated => b.simAnswer q
  | .real [] => Config.realAnswer b.log q
  | .real (a :: _) => a

/-- What the transaction leaves of the bus: MAP on the Simulated bus, the answers still to come on a Real one, and the
transaction in the log. -/
def Bus.after (b : Bus) (q : Request) : Bus :=
  let log := ⟨q, b.answer q⟩ :: b.log
  match b.kind with
  | .simulated => { b with map := b.simStore q, log := log }
  | .real [] => { b with log := log }
  | .real (_ :: rest) => { b with kind := .real rest, log := log }

/-- `MemWrite(addr:reg, len(bytes), bytes)` (R13, R63): whether it was acknowledged, and the state after. -/
def memWrite (s : State) (addr : DevAddr) (reg : RegOffset) (bytes : List Byte) : Bool × State :=
  let q := Request.write addr reg bytes
  (s.bus.answer q != .nak, { s with bus := s.bus.after q })

/-- How a read ends: the `n` bytes asked for, or the reason they were not accepted (R64). -/
inductive ReadResult where
  | nak
  /-- acknowledged with more or fewer bytes than asked for: a short read -/
  | short
  | bytes (bs : List Byte)
deriving DecidableEq, Repr

/-- An answer to a read of `n` bytes: accepted "only if `len(s) = n`" (R64). -/
def acceptRead (n : Nat) : Answer → ReadResult
  | .nak => .nak
  | .ack bs => if bs.length = n then .bytes bs else .short

/-- `MemRead(addr:reg, n)` (R13, R64): the accepted answer, and the state after. -/
def memRead (s : State) (addr : DevAddr) (reg : RegOffset) (n : Nat) : ReadResult × State :=
  let q := Request.read addr reg n
  (acceptRead n (s.bus.answer q), { s with bus := s.bus.after q })

/-! ### Register and buffer updates (R12) -/

/-- `G[r]` (R12, R23). -/
def State.readG (s : State) (r : GReg) : Word := s.g[r]

/-- `G[r] <- v` (R12). -/
def State.setG (s : State) (r : GReg) (v : Word) : State := { s with g := s.g.set r v }

/-- Put bytes into a buffer from index `k` on; a byte past the buffer's end goes nowhere. -/
def storeBytes {n : Nat} (v : Vector Byte n) (k : Nat) : List Byte → Vector Byte n
  | [] => v
  | b :: bs => storeBytes (v.setIfInBounds k b) (k + 1) bs

/-- `BUF[k + i] <- bs[i]` (R42). -/
def State.storeBuf (s : State) (k : Nat) (bs : List Byte) : State := { s with buf := storeBytes s.buf k bs }

/-- `CALBUF[k + i] <- bs[i]` (R41). -/
def State.storeCalbuf (s : State) (k : Nat) (bs : List Byte) : State := { s with calbuf := storeBytes s.calbuf k bs }

/-- Write FLAGS. -/
def State.setFlags (s : State) (f : Flags) : State := { s with flags := f }

/-- Write the seven TIME registers. -/
def State.setTime (s : State) (t : RtcTime) : State := { s with time := t }

/-- Write the six RAW registers together (R216). -/
def State.setRaw (s : State) (r : RawSample) : State := { s with raw := r }

/-- Write T_FINE. -/
def State.setTFine (s : State) (v : Word) : State := { s with tFine := v }

/-- Write the OUT registers. -/
def State.setOut (s : State) (o : Outputs) : State := { s with out := o }

/-- Write the CFG registers. -/
def State.setCfg (s : State) (c : CfgRegs) : State := { s with cfg := c }

/-- Write ERRMASK. -/
def State.setErrmask (s : State) (m : BitVec 16) : State := { s with errmask := m }

/-- RTC_STATE and RTC_DEV move together (R186). -/
def State.setRtc (s : State) (st : RtcState) (dev : DeviceStatus) : State := { s with rtcState := st, rtcDev := dev }

/-- SNS_STATE and SNS_DEV move together (R190). -/
def State.setSns (s : State) (st : SnsState) (dev : DeviceStatus) : State := { s with snsState := st, snsDev := dev }

/-- Write LAST_POLLS (R32). -/
def State.setPolls (s : State) (n : BitVec 8) : State := { s with lastPolls := n }

/-- Replace the bus. -/
def State.setBus (s : State) (b : Bus) : State := { s with bus := b }

/-- Replace the host accesses still to come. -/
def State.setPort (s : State) (p : List PortOp) : State := { s with port := p }

/-- The host register port's answer to a read. -/
def State.setHostData (s : State) (v : Word) : State := { s with hostData := some v }

/-- A staling event (R31). -/
def State.stale (s : State) : State := s.setFlags s.flags.stale

/-! ### Completion, the block's exception mechanism (R14, R270-R276) -/

/-- The number of an error code (R270). -/
def ErrCode.number : ErrCode → BitVec 4
  | .ok => 0
  | .busError => 1
  | .identityMismatch => 2
  | .calibrationInvalid => 3
  | .notResponding => 4
  | .argRange => 5
  | .illegalCommand => 6
  | .sequence => 7
  | .compError => 8

/-- The bit of ERRMASK that a completion sets: bit e for a code e ≠ 0, none for OK (R272). -/
def ErrCode.maskBit (e : ErrCode) : BitVec 16 :=
  match e with
  | .ok => 0
  | e => 1#16 <<< e.number.toNat

/-- Completion of a command with code `e`, after everything its pseudocode wrote: "`ERR <- e`", "`if e != 0: ERRMASK[e] <- 1`"
(R272). There is no trap: no state is saved, no mode changes, no control is transferred, and so there is no return (R276). -/
def State.complete (s : State) (e : ErrCode) : State := { s with err := e, errmask := s.errmask ||| e.maskBit }

/-- What the pseudocode of a command ends with: the state it wrote, and the code it raised, or OK (R14). -/
abbrev Ended := State × ErrCode

/-- The pseudocode reached its end. -/
def done (s : State) : Ended := (s, .ok)

/-- `raise E`: what was written stays, nothing after is written (R14). -/
def raise (s : State) (e : ErrCode) : Ended := (s, e)

/-- Go on with more pseudocode unless a code was raised (R255). -/
def Ended.andThen (r : Ended) (f : State → Ended) : Ended := if r.2 = .ok then f r.1 else r

/-- The command completes, and the block waits for the next: every completion is a next state, whatever its code (R273). -/
def finish (r : Ended) : Host.Outcome State Fault Refusal := .next (r.1.complete r.2)

/-- A word that is no command: it "completes with IllegalCommand and changes no state other than ERR and ERRMASK" (R96). -/
def illegalCommand (s : State) : Host.Outcome State Fault Refusal := finish (raise s .illegalCommand)

/-! ### Bus sequences shared by the sequencer commands -/

/-- One-byte writes to a device in list order, up to the first NAK (R201, R213): whether every one was acknowledged. -/
def writeEach (addr : DevAddr) : List RegWrite → State → Bool × State
  | [], s => (true, s)
  | (r, v) :: rest, s =>
    let w := memWrite s addr r [v]
    if w.1 then writeEach addr rest w.2 else (false, w.2)

end Sys2Proof.Machine
end

