-- ==== Sys2Proof/Machine/Operands.lean ====
section
/-! DEFINITION. The register map (R21): the registers an index names, how each reads (R43) and what a write to each does
(R22-R42, R121). GET, PUT and the host register port are the only users of it. -/

namespace Sys2Proof.Machine

/-- The assigned registers of the register map (R21). -/
inductive Reg where
  | g (i : Fin 8)
  | err | errmask | rtcState | rtcDev | snsState | snsDev | flags | lastPolls
  | timeSec | timeMin | timeHour | timeWday | timeDay | timeMonth | timeYear
  | rawT | rawP | rawH | rawG | rawGr | rawHs
  | tFine
  | outT | outP | outH | outG | outAq
  | cfgEpoch | cfgMaxRetry | cfgOsT | cfgOsP | cfgOsH | cfgFilter | cfgHeatRes | cfgHeatDur
  | cfgAqb (i : Fin 7)
  | cfgAqn
  | calbuf (i : Fin 64)
  | buf (i : Fin 32)
deriving DecidableEq, Repr

/-- The registers with an index of their own, with it (R21). -/
def singleRegs : List (Nat × Reg) :=
  [(0x08, .err), (0x09, .errmask), (0x0A, .rtcState), (0x0B, .rtcDev), (0x0C, .snsState), (0x0D, .snsDev), (0x0E, .flags),
   (0x0F, .lastPolls)] ++
  [(0x10, .timeSec), (0x11, .timeMin), (0x12, .timeHour), (0x13, .timeWday), (0x14, .timeDay), (0x15, .timeMonth),
   (0x16, .timeYear)] ++
  [(0x20, .rawT), (0x21, .rawP), (0x22, .rawH), (0x23, .rawG), (0x24, .rawGr), (0x25, .rawHs)] ++
  [(0x28, .tFine), (0x30, .outT), (0x31, .outP), (0x32, .outH), (0x33, .outG), (0x34, .outAq)] ++
  [(0x40, .cfgEpoch), (0x41, .cfgMaxRetry), (0x42, .cfgOsT), (0x43, .cfgOsP), (0x44, .cfgOsH), (0x45, .cfgFilter),
   (0x46, .cfgHeatRes), (0x47, .cfgHeatDur), (0x4F, .cfgAqn)]

/-- Member `n - base` of a run of `size` registers that starts at `base`, where `n` lies in the run. -/
def runMember (base size n : Nat) : Option (Fin size) :=
  if h : base ≤ n ∧ n < base + size then some ⟨n - base, by omega⟩ else none

/-- The register at an index, none where the index is unassigned (R21). -/
def Reg.ofIndex (idx : BitVec 8) : Option Reg :=
  let n := idx.toNat
  match runMember 0x00 8 n, runMember 0x48 7 n, runMember 0x80 64 n, runMember 0xC0 32 n with
  | some i, _, _, _ => some (.g i)
  | none, some i, _, _ => some (.cfgAqb i)
  | none, none, some i, _ => some (.calbuf i)
  | none, none, none, some i => some (.buf i)
  | none, none, none, none => (singleRegs.find? (fun r => r.1 == n)).map (·.2)

/-- The index of a register (R21). -/
def Reg.index : Reg → BitVec 8
  | .g i => BitVec.ofNat 8 i
  | .err => 0x08
  | .errmask => 0x09
  | .rtcState => 0x0A
  | .rtcDev => 0x0B
  | .snsState => 0x0C
  | .snsDev => 0x0D
  | .flags => 0x0E
  | .lastPolls => 0x0F
  | .timeSec => 0x10
  | .timeMin => 0x11
  | .timeHour => 0x12
  | .timeWday => 0x13
  | .timeDay => 0x14
  | .timeMonth => 0x15
  | .timeYear => 0x16
  | .rawT => 0x20
  | .rawP => 0x21
  | .rawH => 0x22
  | .rawG => 0x23
  | .rawGr => 0x24
  | .rawHs => 0x25
  | .tFine => 0x28
  | .outT => 0x30
  | .outP => 0x31
  | .outH => 0x32
  | .outG => 0x33
  | .outAq => 0x34
  | .cfgEpoch => 0x40
  | .cfgMaxRetry => 0x41
  | .cfgOsT => 0x42
  | .cfgOsP => 0x43
  | .cfgOsH => 0x44
  | .cfgFilter => 0x45
  | .cfgHeatRes => 0x46
  | .cfgHeatDur => 0x47
  | .cfgAqb i => BitVec.ofNat 8 (0x48 + i)
  | .cfgAqn => 0x4F
  | .calbuf i => BitVec.ofNat 8 (0x80 + i)
  | .buf i => BitVec.ofNat 8 (0xC0 + i)

/-- The registers of access class RO: ERR, RTC_STATE, RTC_DEV, SNS_STATE, SNS_DEV, LAST_POLLS, T_FINE and OUT_T..OUT_AQ
(R120). -/
def Reg.readOnly : Reg → Bool
  | .err | .rtcState | .rtcDev | .snsState | .snsDev | .lastPolls | .tFine => true
  | .outT | .outP | .outH | .outG | .outAq => true
  | .g _ | .errmask | .flags => false
  | .timeSec | .timeMin | .timeHour | .timeWday | .timeDay | .timeMonth | .timeYear => false
  | .rawT | .rawP | .rawH | .rawG | .rawGr | .rawHs => false
  | .cfgEpoch | .cfgMaxRetry | .cfgOsT | .cfgOsP | .cfgOsH | .cfgFilter | .cfgHeatRes | .cfgHeatDur => false
  | .cfgAqb _ | .cfgAqn | .calbuf _ | .buf _ => false

/-- The encoding of RTC_STATE (R26). -/
def RtcState.number : RtcState → BitVec 2
  | .unchecked => 0
  | .valid => 1
  | .invalid => 2
  | .justSet => 3

/-- The encoding of a DeviceStatus (R27). -/
def DeviceStatus.number : DeviceStatus → BitVec 3
  | .uninitialized => 0
  | .ready => 1
  | .notResponding => 2
  | .identityMismatch => 3
  | .calibrationInvalid => 4

/-- The encoding of SNS_STATE (R28). -/
def SnsState.number : SnsState → BitVec 3
  | .powerOn => 0
  | .identityChecked => 1
  | .reset => 2
  | .configured => 3
  | .ready => 4
  | .halted => 5

/-- The read value of a register: "the stored bits zero-extended to 32 bits", T_FINE and OUT_T their 32-bit pattern (R43).
ERRMASK reads with bit 0 clear (R25). -/
def readReg (s : State) : Reg → Word
  | .g i => s.g[i]
  | .err => s.err.number.zeroExtend 32
  | .errmask => (s.errmask &&& 0xFFFE#16).zeroExtend 32
  | .rtcState => s.rtcState.number.zeroExtend 32
  | .rtcDev => s.rtcDev.number.zeroExtend 32
  | .snsState => s.snsState.number.zeroExtend 32
  | .snsDev => s.snsDev.number.zeroExtend 32
  | .flags => s.flags.toWord
  | .lastPolls => s.lastPolls.zeroExtend 32
  | .timeSec => s.time.second
  | .timeMin => s.time.minute
  | .timeHour => s.time.hour
  | .timeWday => s.time.weekday
  | .timeDay => s.time.day
  | .timeMonth => s.time.month
  | .timeYear => s.time.year
  | .rawT => s.raw.t
  | .rawP => s.raw.p
  | .rawH => s.raw.h
  | .rawG => s.raw.g
  | .rawGr => s.raw.gr.zeroExtend 32
  | .rawHs => s.raw.hs.zeroExtend 32
  | .tFine => s.tFine
  | .outT => s.out.t
  | .outP => s.out.p
  | .outH => s.out.h
  | .outG => s.out.g
  | .outAq => s.out.aq.zeroExtend 32
  | .cfgEpoch => s.cfg.epoch.zeroExtend 32
  | .cfgMaxRetry => s.cfg.maxRetry.zeroExtend 32
  | .cfgOsT => s.cfg.sensor.osT.zeroExtend 32
  | .cfgOsP => s.cfg.sensor.osP.zeroExtend 32
  | .cfgOsH => s.cfg.sensor.osH.zeroExtend 32
  | .cfgFilter => s.cfg.sensor.filter.zeroExtend 32
  | .cfgHeatRes => s.cfg.sensor.heatRes.zeroExtend 32
  | .cfgHeatDur => s.cfg.sensor.heatDur.zeroExtend 32
  | .cfgAqb i => s.cfg.aqb[i]
  | .cfgAqn => s.cfg.aqn.zeroExtend 32
  | .calbuf i => s.calbuf[i].zeroExtend 32
  | .buf i => s.buf[i].zeroExtend 32

/-- The low bits of a written word that a narrower register stores. -/
def lowBits (n : Nat) (v : Word) : BitVec n := v.extractLsb' 0 n

/-- The legal value of CFG_MAXRETRY: v[7:0], or 1 where that is 0 (R38). -/
def legalRetry (v : Word) : BitVec 8 := if lowBits 8 v = 0 then 1 else lowBits 8 v

/-- Write the sensor configuration object. -/
def State.setSensorCfg (s : State) (c : Config.SensorCfg) : State := s.setCfg { s.cfg with sensor := c }

/-- Write the RAW registers from the outside: a staling event (R31, R34). -/
def State.writeRaw (s : State) (r : RawSample) : State := (s.setRaw r).stale

/-- Write the bucket registers from the outside: AQ_DONE is cleared (R40). -/
def State.writeAq (s : State) (c : CfgRegs) : State := (s.setCfg c).setFlags s.flags.staleAq

/-- A write of `v` to a register by PUT or the host register port: its legal part is stored and its side effect applied
(R120, R121). A read-only register takes no write. -/
def writeReg (s : State) (r : Reg) (v : Word) : State :=
  match r with
  | .g i => s.setG i v
  | .errmask => s.setErrmask (s.errmask &&& ~~~(lowBits 16 v))
  | .flags => s.setFlags (Flags.ofWrite v)
  | .timeSec => s.setTime { s.time with second := v }
  | .timeMin => s.setTime { s.time with minute := v }
  | .timeHour => s.setTime { s.time with hour := v }
  | .timeWday => s.setTime { s.time with weekday := v }
  | .timeDay => s.setTime { s.time with day := v }
  | .timeMonth => s.setTime { s.time with month := v }
  | .timeYear => s.setTime { s.time with year := v }
  | .rawT => s.writeRaw { s.raw with t := v }
  | .rawP => s.writeRaw { s.raw with p := v }
  | .rawH => s.writeRaw { s.raw with h := v }
  | .rawG => s.writeRaw { s.raw with g := v }
  | .rawGr => s.writeRaw { s.raw with gr := lowBits 4 v }
  | .rawHs => s.writeRaw { s.raw with hs := lowBits 1 v }
  | .cfgEpoch => s.setCfg { s.cfg with epoch := lowBits 16 v }
  | .cfgMaxRetry => s.setCfg { s.cfg with maxRetry := legalRetry v }
  | .cfgOsT => s.setSensorCfg { s.cfg.sensor with osT := lowBits 3 v }
  | .cfgOsP => s.setSensorCfg { s.cfg.sensor with osP := lowBits 3 v }
  | .cfgOsH => s.setSensorCfg { s.cfg.sensor with osH := lowBits 3 v }
  | .cfgFilter => s.setSensorCfg { s.cfg.sensor with filter := lowBits 3 v }
  | .cfgHeatRes => s.setSensorCfg { s.cfg.sensor with heatRes := lowBits 8 v }
  | .cfgHeatDur => s.setSensorCfg { s.cfg.sensor with heatDur := lowBits 8 v }
  | .cfgAqb i => s.writeAq { s.cfg with aqb := s.cfg.aqb.set i v }
  | .cfgAqn => s.writeAq { s.cfg with aqn := lowBits 3 v }
  | .calbuf i => (s.storeCalbuf i [lowBits 8 v]).stale
  | .buf i => s.storeBuf i [lowBits 8 v]
  | .err | .rtcState | .rtcDev | .snsState | .snsDev | .lastPolls | .tFine => s
  | .outT | .outP | .outH | .outG | .outAq => s

end Sys2Proof.Machine
end

