-- ==== Sys2Proof/Machine/Calendar.lean ====
section
/-! DEFINITION. The functions of the BCD unit: the BCD byte codec (R150-R152), the range checks (R157), the weekday algorithm
(R158) and the validity predicate (R160). -/

namespace Sys2Proof.Machine

/-- `enc(v) = ((v div 10) << 4) OR (v mod 10)` (R151). Every command checks 0 <= v <= 99 first. -/
def bcdEnc (v : Nat) : Byte := BitVec.ofNat 8 (v / 10) <<< 4 ||| BitVec.ofNat 8 (v % 10)

/-- `dec(b) = b[7:4] * 10 + b[3:0]`, for every byte (R152). -/
def bcdDec (b : Byte) : Nat := (b.extractLsb' 4 4).toNat * 10 + (b.extractLsb' 0 4).toNat

/-- A byte is well-formed BCD where both nibbles are at most 9 (R150). -/
def bcdWellFormed (b : Byte) : Bool := decide ((b.extractLsb' 4 4).toNat ≤ 9 ∧ (b.extractLsb' 0 4).toNat ≤ 9)

/-- `dateInRange(y, m, d)`: the day is checked against 1..31, not the month's length (R157). -/
def dateInRange (y m d : Nat) : Bool := decide (2000 ≤ y ∧ y ≤ 2099 ∧ 1 ≤ m ∧ m ≤ 12 ∧ 1 ≤ d ∧ d ≤ 31)

/-- The clock fields in their natural ranges (R155). -/
def clockInRange (hour minute second : Nat) : Bool := decide (hour ≤ 23 ∧ minute ≤ 59 ∧ second ≤ 59)

/-- `dateInRange` of the staged date (R163). -/
def RtcTime.dateOk (t : RtcTime) : Bool := dateInRange t.year.toNat t.month.toNat t.day.toNat

/-- The hour, minute and second of a staged time in range (R181). -/
def RtcTime.clockOk (t : RtcTime) : Bool := clockInRange t.hour.toNat t.minute.toNat t.second.toNat

/-- `inRange(t)`, "compared as unsigned 32-bit integers" (R157). -/
def RtcTime.inRange (t : RtcTime) : Bool := t.dateOk && t.clockOk && decide (t.weekday.toNat ≤ 6)

/-- `wd(y, m, d)`, Zeller's congruence with 0 = Monday .. 6 = Sunday (R158). -/
def weekdayOf (y m d : Nat) : Nat :=
  let mm := if m ≤ 2 then m + 12 else m
  let yy := if m ≤ 2 then y - 1 else y
  let k := yy % 100
  let j := yy / 100
  let h := (d + 13 * (mm + 1) / 5 + k + k / 4 + j / 4 + 5 * j) % 7
  (h + 5) % 7

/-- `isTimeValid(t, epoch)`; the weekday is not checked (R160). -/
def isTimeValid (t : RtcTime) (epoch : BitVec 16) : Bool :=
  decide (max 2000 epoch.toNat ≤ t.year.toNat) && t.dateOk && t.clockOk

/-- The BCD time block of a staged time, byte i as R155 numbers it (R165). -/
def RtcTime.toBcd (t : RtcTime) : List Byte :=
  [bcdEnc t.second.toNat, bcdEnc t.minute.toNat, bcdEnc t.hour.toNat, bcdEnc t.weekday.toNat, bcdEnc t.day.toNat,
   bcdEnc t.month.toNat, bcdEnc (t.year.toNat - 2000)]

/-- The time that seven BCD bytes decode to, the year as 2000 + dec(byte) (R156, R167). -/
def RtcTime.ofBcd (c : List Byte) : RtcTime :=
  { second := word (bcdDec (byteAt c 0)), minute := word (bcdDec (byteAt c 1)), hour := word (bcdDec (byteAt c 2))
    weekday := word (bcdDec (byteAt c 3)), day := word (bcdDec (byteAt c 4)), month := word (bcdDec (byteAt c 5))
    year := word (2000 + bcdDec (byteAt c 6)) }

end Sys2Proof.Machine
end

