-- ==== Sys2Proof/Machine/BcdUnit.lean ====
section
/-! DEFINITION. The BCD unit's commands BCDENC, BCDDEC, WDAY, TVALID, TPACK and TUNPACK (R161-R167). -/

namespace Sys2Proof.Machine

/-- BCDENC (R161): ArgRange above 99, else the BCD byte. -/
def execBcdenc (rd rs : GReg) (s : State) : Host.Outcome State Fault Refusal :=
  let v := (s.readG rs).toNat
  if v > 99 then finish (raise s .argRange) else finish (done (s.setG rd ((bcdEnc v).zeroExtend 32)))

/-- BCDDEC (R162): ArgRange above 0xFF, else the decoded byte. -/
def execBcddec (rd rs : GReg) (s : State) : Host.Outcome State Fault Refusal :=
  let b := s.readG rs
  if b.toNat > 0xFF then finish (raise s .argRange) else finish (done (s.setG rd (word (bcdDec (lowBits 8 b)))))

/-- WDAY (R163): ArgRange where the staged date is out of range, else its weekday. -/
def execWday (rd : GReg) (s : State) : Host.Outcome State Fault Refusal :=
  if s.time.dateOk then
    finish (done (s.setG rd (word (weekdayOf s.time.year.toNat s.time.month.toNat s.time.day.toNat))))
  else finish (raise s .argRange)

/-- TVALID (R164): 1 where the staged time is valid, else 0. -/
def execTvalid (rd : GReg) (s : State) : Host.Outcome State Fault Refusal :=
  finish (done (s.setG rd (if isTimeValid s.time s.cfg.epoch then 1 else 0)))

/-- TPACK (R165): ArgRange where a field is out of range, else the BCD time block into BUF[0..6]. -/
def execTpack (s : State) : Host.Outcome State Fault Refusal :=
  if s.time.inRange then finish (done (s.storeBuf 0 s.time.toBcd)) else finish (raise s .argRange)

/-- TUNPACK (R167): the time that BUF[0..6] decodes to. -/
def execTunpack (s : State) : Host.Outcome State Fault Refusal :=
  finish (done (s.setTime (RtcTime.ofBcd (s.buf.toList.take 7))))

end Sys2Proof.Machine
end

