-- ==== Sys2Proof/Machine/BlockRegs.lean ====
section
/-! DEFINITION. The block register commands NOP, LDI, LUI, GET and PUT (R110-R121). -/

namespace Sys2Proof.Machine

/-- NOP (R111): completes OK. -/
def execNop (s : State) : Host.Outcome State Fault Refusal := finish (done s)

/-- LDI (R112): `G[rd] <- zext_32(imm16)`. -/
def execLdi (rd : GReg) (imm : BitVec 16) (s : State) : Host.Outcome State Fault Refusal :=
  finish (done (s.setG rd (imm.zeroExtend 32)))

/-- LUI (R113): `G[rd] <- {imm16, G[rd][15:0]}`. -/
def execLui (rd : GReg) (imm : BitVec 16) (s : State) : Host.Outcome State Fault Refusal :=
  finish (done (s.setG rd (imm ++ lowBits 16 (s.readG rd))))

/-- GET (R115): ArgRange where the index is unassigned, else `G[rd] <- REG[idx]`. -/
def execGet (rd : GReg) (idx : BitVec 8) (s : State) : Host.Outcome State Fault Refusal :=
  match Reg.ofIndex idx with
  | none => finish (raise s .argRange)
  | some r => finish (done (s.setG rd (readReg s r)))

/-- PUT (R120): ArgRange where the index is unassigned or read-only, else the register's write with its side effect. -/
def execPut (idx : BitVec 8) (rs : GReg) (s : State) : Host.Outcome State Fault Refusal :=
  match Reg.ofIndex idx with
  | none => finish (raise s .argRange)
  | some r => if r.readOnly then finish (raise s .argRange) else finish (done (writeReg s r (s.readG rs)))

end Sys2Proof.Machine
end

