-- ==== Sys2Proof/Machine/BusTransport.lean ====
section
/-! DEFINITION. The bus transport commands I2CWR and I2CRD (R130-R136). -/

namespace Sys2Proof.Machine

/-- The operand check shared by both commands, made before any transaction (R131). -/
def busOperandsOk (reg : RegOffset) (len : Nat) : Bool := decide (1 ≤ len ∧ len ≤ 32 ∧ reg.toNat + len ≤ 256)

/-- I2CWR (R132): send BUF[0..len-1]. -/
def execI2cwr (addr : DevAddr) (reg : RegOffset) (len : Nat) (s : State) : Host.Outcome State Fault Refusal :=
  if busOperandsOk reg len then
    let w := memWrite s addr reg (s.buf.toList.take len)
    if w.1 then finish (done w.2) else finish (raise w.2 .busError)
  else finish (raise s .argRange)

/-- I2CRD (R135): receive into BUF[0..len-1], "written only after the whole answer is accepted" (R136). -/
def execI2crd (addr : DevAddr) (reg : RegOffset) (len : Nat) (s : State) : Host.Outcome State Fault Refusal :=
  if busOperandsOk reg len then
    let r := memRead s addr reg len
    match r.1 with
    | .bytes bs => finish (done (r.2.storeBuf 0 bs))
    | .nak => finish (raise r.2 .busError)
    | .short => finish (raise r.2 .busError)
  else finish (raise s .argRange)

end Sys2Proof.Machine
end

