-- ==== Sys2Proof/Machine/Compensation.lean ====
section
/-! DEFINITION. The compensation pipeline CMPT, CMPP, CMPH, CMPG, CMPAQ and CMPALL (R230-R262). The formulas are the parameters
COMP_T .. COMP_G and AQ_INDEX (R231). -/

namespace Sys2Proof.Machine

/-- `CAL_DECODE(CALBUF[0..CAL_LEN-1])` (R240). -/
def State.coef (s : State) : Config.Coef := s.params.calDecode (s.calbuf.toList.take s.params.calLen)

/-- Coefficients and a sample are held: CAL_VALID and RAW_VALID (R240). -/
def State.inputsValid (s : State) : Bool := s.flags.calValid && s.flags.rawValid

/-- The fine temperature is there too: T_DONE (R243). -/
def State.fineValid (s : State) : Bool := s.inputsValid && s.flags.tDone

/-- What COMP_T makes of the current inputs (R240). -/
def State.compT (s : State) : Option (Int × Int) := s.params.compT s.coef s.raw.t

/-- What COMP_P makes of the current inputs; "t_fine is taken from the T_FINE register as a signed 32-bit value" (R244). -/
def State.compP (s : State) : Option Int := s.params.compP s.coef (sext32 s.tFine) s.raw.p

/-- What COMP_H makes of the current inputs (R246). -/
def State.compH (s : State) : Option Int := s.params.compH s.coef (sext32 s.tFine) s.raw.h

/-- What COMP_G makes of the current inputs (R249). -/
def State.compG (s : State) : Option Int := s.params.compG s.coef s.raw.g s.raw.gr

/-- The pseudocode of CMPT (R240). -/
def stageT (s : State) : Ended :=
  if s.inputsValid then
    match s.compT with
    | none => raise s .compError
    | some (tf, t) =>
      done (((s.setTFine (wrap32 tf)).setOut { s.out with t := wrap32 t }).setFlags { s.flags with tDone := true })
  else raise s .sequence

/-- The pseudocode of CMPP (R243). -/
def stageP (s : State) : Ended :=
  if s.fineValid then
    match s.compP with
    | none => raise s .compError
    | some p => done ((s.setOut { s.out with p := wrap32 p }).setFlags { s.flags with pDone := true })
  else raise s .sequence

/-- The pseudocode of CMPH (R246). -/
def stageH (s : State) : Ended :=
  if s.fineValid then
    match s.compH with
    | none => raise s .compError
    | some h => done ((s.setOut { s.out with h := wrap32 h }).setFlags { s.flags with hDone := true })
  else raise s .sequence

/-- The pseudocode of CMPG (R249): it does not need T_DONE, and RAW_HS does not gate it (R250). -/
def stageG (s : State) : Ended :=
  if s.inputsValid then
    match s.compG with
    | none => raise s .compError
    | some g => done ((s.setOut { s.out with g := wrap32 g }).setFlags { s.flags with gDone := true })
  else raise s .sequence

/-- `aqBucket(x)`: "the number of i in 0..CFG_AQN-1 with `x >= CFG_AQB_i` (unsigned 32-bit comparison)" (R262). -/
def aqBucket (c : CfgRegs) (x : Word) : Nat := (c.aqb.toList.take c.aqn.toNat).countP (fun b => decide (b ≤ x))

/-- `AQ_INDEX(sext_32(OUT_T), OUT_P, OUT_H, OUT_G)` (R252). -/
def State.aqIndex (s : State) : Word := s.params.aqIndex (sext32 s.out.t) s.out.p s.out.h s.out.g

/-- The four stages before air quality are done (R252). -/
def State.outputsDone (s : State) : Bool := s.flags.tDone && s.flags.pDone && s.flags.hDone && s.flags.gDone

/-- The pseudocode of CMPAQ (R252). -/
def stageAq (s : State) : Ended :=
  if s.outputsDone then
    done ((s.setOut { s.out with aq := BitVec.ofNat 3 (aqBucket s.cfg s.aqIndex) }).setFlags { s.flags with aqDone := true })
  else raise s .sequence

/-- CMPT (R240). -/
def execCmpt (s : State) : Host.Outcome State Fault Refusal := finish (stageT s)

/-- CMPP (R243). -/
def execCmpp (s : State) : Host.Outcome State Fault Refusal := finish (stageP s)

/-- CMPH (R246). -/
def execCmph (s : State) : Host.Outcome State Fault Refusal := finish (stageH s)

/-- CMPG (R249). -/
def execCmpg (s : State) : Host.Outcome State Fault Refusal := finish (stageG s)

/-- CMPAQ (R252). -/
def execCmpaq (s : State) : Host.Outcome State Fault Refusal := finish (stageAq s)

/-- CMPALL (R255): the five stages in order, ended by the first code a stage raises. -/
def execCmpall (s : State) : Host.Outcome State Fault Refusal :=
  finish (((((stageT s).andThen stageP).andThen stageH).andThen stageG).andThen stageAq)

end Sys2Proof.Machine
end

