-- ==== Sys2Proof/Machine/RtcSequencer.lean ====
section
/-! DEFINITION. The RTC sequencer's commands RTCRD and RTCSET and the RTC state machine they drive (R170-R186). -/

namespace Sys2Proof.Machine

/-- `s[i] AND RTC_DATA_MASK[i]`: the bits of each byte that carry its field (R170). -/
def maskTime (mask : Vector Byte 7) (bs : List Byte) : List Byte := List.zipWith (· &&& ·) bs mask.toList

/-- `enc(f[i]) OR RTC_SET_BITS[i]` (R170, R181). -/
def withSetBits (set : Vector Byte 7) (bs : List Byte) : List Byte := List.zipWith (· ||| ·) bs set.toList

/-- A NAK or a short read: the chip's time is unknown (R176). -/
def rtcBusFailure (s : State) : Ended := raise (s.setRtc .unchecked .notResponding) .busError

/-- The pseudocode of RTCRD once the seven bytes are accepted (R175). -/
def rtcAccept (bs : List Byte) (s : State) : Ended :=
  let t := RtcTime.ofBcd (maskTime s.params.rtcDataMask bs)
  done (((s.storeBuf 0 bs).setTime t).setRtc (if isTimeValid t s.cfg.epoch then .valid else .invalid) .ready)

/-- RTCRD (R175): read the seven time registers. -/
def execRtcrd (s : State) : Host.Outcome State Fault Refusal :=
  let r := memRead s s.params.rtcAddr s.params.rtcTimeBase 7
  match r.1 with
  | .bytes bs => finish (rtcAccept bs r.2)
  | .nak => finish (rtcBusFailure r.2)
  | .short => finish (rtcBusFailure r.2)

/-- RTCSET is accepted only in Invalid and JustSet (R180). -/
def rtcSetAllowed (st : RtcState) : Bool :=
  match st with
  | .invalid => true
  | .justSet => true
  | .unchecked => false
  | .valid => false

/-- The candidate with its weekday computed, "not trusted from the caller" (R181). -/
def RtcTime.withWeekday (t : RtcTime) : RtcTime :=
  { t with weekday := word (weekdayOf t.year.toNat t.month.toNat t.day.toNat) }

/-- The seven bytes that RTCSET writes (R181). -/
def rtcSetBytes (s : State) : List Byte := withSetBits s.params.rtcSetBits s.time.withWeekday.toBcd

/-- The state RTCSET has written before its first transaction: TIME.weekday and BUF[0..6] (R181, R182). -/
def rtcStage (s : State) : State := (s.setTime s.time.withWeekday).storeBuf 0 (rtcSetBytes s)

/-- RTCSET's comparison of the re-read `c` with the written `b` (R181). -/
def rtcConfirm (b c : List Byte) (s : State) : Ended :=
  let s := s.storeBuf 8 c
  if maskTime s.params.rtcDataMask c = maskTime s.params.rtcDataMask b then done (s.setRtc .justSet .ready)
  else raise (s.setRtc .invalid .calibrationInvalid) .calibrationInvalid

/-- The re-read of RTCSET, "re-read to confirm" (R181). -/
def rtcReread (b : List Byte) (s : State) : Ended :=
  let r := memRead s s.params.rtcAddr s.params.rtcTimeBase 7
  match r.1 with
  | .bytes c => rtcConfirm b c r.2
  | .nak => rtcBusFailure r.2
  | .short => rtcBusFailure r.2

/-- RTCSET's write, and the re-read where it is acknowledged (R181). -/
def rtcWrite (s : State) : Ended :=
  let b := rtcSetBytes s
  let w := memWrite (rtcStage s) s.params.rtcAddr s.params.rtcTimeBase b
  if w.1 then rtcReread b w.2 else rtcBusFailure w.2

/-- RTCSET (R181): the guard (R180), the range checks, then the write and the re-read. -/
def execRtcset (s : State) : Host.Outcome State Fault Refusal :=
  if rtcSetAllowed s.rtcState then
    if s.time.dateOk && s.time.clockOk then finish (rtcWrite s) else finish (raise s .argRange)
  else finish (raise s .sequence)

end Sys2Proof.Machine
end

