-- ==== Sys2Proof/Machine/Sensor.lean ====
section
/-! DEFINITION. The sensor sequencer's commands SNSID, SNSRST, SNSCFG, SNSCAL and SNSACQ and the sensor state machine they
drive (R190-R217). -/

namespace Sys2Proof.Machine

/-- `fail(dev, code)`: `SNS_STATE <- Halted; SNS_DEV <- dev; raise code` (R191). -/
def snsFail (s : State) (dev : DeviceStatus) (code : ErrCode) : Ended := raise (s.setSns .halted dev) code

/-- "any step's bus failure transitions to `NotResponding`" (R191). -/
def snsBusFailure (s : State) : Ended := snsFail s .notResponding .busError

/-- Clear CAL_VALID (R208). -/
def State.dropCal (s : State) : State := s.setFlags { s.flags with calValid := false }

/-- Clear RAW_VALID (R213). -/
def State.dropRaw (s : State) : State := s.setFlags { s.flags with rawValid := false }

/-- SNSID's pseudocode once the identity byte is read (R195). -/
def snsIdentify (id : Byte) (s : State) : Ended :=
  let s := s.storeBuf 0 [id]
  if id = s.params.chipIdValue then done (s.setSns .identityChecked .uninitialized)
  else snsFail s .identityMismatch .identityMismatch

/-- SNSID (R195): accepted in every state, it restarts the state machine. -/
def execSnsid (s : State) : Host.Outcome State Fault Refusal :=
  let r := memRead (s.setSns .powerOn s.snsDev) s.params.snsAddr s.params.chipIdReg 1
  match r.1 with
  | .bytes bs => finish (snsIdentify (byteAt bs 0) r.2)
  | .nak => finish (snsBusFailure r.2)
  | .short => finish (snsBusFailure r.2)

/-- SNSRST (R198): the flags are cleared before the write, "whether the write succeeds or not"; a refused
SNSRST is no staling event. DEDUCED (log entry 9). -/
def execSnsrst (s : State) : Host.Outcome State Fault Refusal :=
  if s.snsState = .identityChecked then
    let w := memWrite (s.setFlags s.flags.invalidate) s.params.snsAddr s.params.softResetReg [s.params.softResetCmd]
    if w.1 then finish (done (w.2.setSns .reset w.2.snsDev)) else finish (snsBusFailure w.2)
  else finish (raise s .sequence)

/-- SNSCFG (R201): the configuration writes in order, "evaluated once at the start" (R205). -/
def execSnscfg (s : State) : Host.Outcome State Fault Refusal :=
  if s.snsState = .reset then
    let w := writeEach s.params.snsAddr (s.params.cfgWrites s.cfg.sensor) s
    if w.1 then finish (done (w.2.setSns .configured w.2.snsDev)) else finish (snsBusFailure w.2)
  else finish (raise s .sequence)

/-- SNSCAL's pseudocode once the coefficient block is accepted (R208). -/
def snsCalibrate (bs : List Byte) (s : State) : Ended :=
  let s := s.storeCalbuf 0 bs
  done (((s.setFlags { s.flags with calValid := true }).stale).setSns .ready .ready)

/-- SNSCAL (R208): the whole coefficient block "in one pass". One refused with Sequence keeps CAL_VALID (R208's
order, R273); R29's "SNSCAL failure" is read of an SNSCAL past its guard. DEDUCED (log entry 22). -/
def execSnscal (s : State) : Host.Outcome State Fault Refusal :=
  if s.snsState = .configured then
    let r := memRead s s.params.snsAddr s.params.calBase s.params.calLen
    match r.1 with
    | .bytes bs => finish (snsCalibrate bs r.2)
    | .nak => finish (snsBusFailure r.2.dropCal)
    | .short => finish (snsFail r.2.dropCal .calibrationInvalid .calibrationInvalid)
  else finish (raise s .sequence)

/-- How the status polls end (R213). -/
inductive PollEnd where
  | ready | timeout | busFailure
deriving DecidableEq, Repr

/-- `n := n + 1; LAST_POLLS <- n` (R213). -/
def State.countPoll (s : State) : State := s.setPolls (s.lastPolls + 1)

/-- `ready := (s[0] AND READY_MASK) = READY_MASK` (R213). -/
def dataReady (mask status : Byte) : Bool := decide (status &&& mask = mask)

/-- At most `k` status polls, up to the first that fails or finds the data ready (R213, R214). -/
def pollReady : Nat → State → PollEnd × State
  | 0, s => (.timeout, s)
  | k + 1, s =>
    let r := memRead s s.params.snsAddr s.params.statusReg 1
    let s' := r.2.countPoll
    match r.1 with
    | .bytes bs => if dataReady s.params.readyMask (byteAt bs 0) then (.ready, s') else pollReady k s'
    | .nak => (.busFailure, s')
    | .short => (.busFailure, s')

/-- The six RAW registers from an extracted sample: `wrap32` of the four raw values, `gr[3:0]` and `hs[0]` (R213). -/
def rawOf (e : Config.Extracted) : RawSample :=
  { t := word e.rawT, p := word e.rawP, h := word e.rawH, g := word e.rawG
    gr := BitVec.ofNat 4 e.gasRange, hs := BitVec.ofNat 1 e.heatStab }

/-- SNSACQ's pseudocode once the sample bytes are accepted (R213, R216). -/
def snsSample (bs : List Byte) (s : State) : Ended :=
  let s := (s.storeBuf 0 bs).setRaw (rawOf (s.params.rawExtract bs))
  done (s.setFlags { s.flags with rawValid := true }).stale

/-- The sample read (R213). -/
def snsReadSample (s : State) : Ended :=
  let r := memRead s s.params.snsAddr s.params.rawBase s.params.rawLen
  match r.1 with
  | .bytes bs => snsSample bs r.2
  | .nak => snsBusFailure r.2.dropRaw
  | .short => snsBusFailure r.2.dropRaw

/-- The polls, and the sample read where the data is ready (R213). -/
def snsPollThenRead (s : State) : Ended :=
  let p := pollReady s.cfg.maxRetry.toNat s
  match p.1 with
  | .ready => snsReadSample p.2
  | .timeout => snsFail p.2.dropRaw .notResponding .notResponding
  | .busFailure => snsBusFailure p.2.dropRaw

/-- SNSACQ (R213): the trigger writes, the bounded polls, the sample read. One refused with Sequence writes
nothing: LAST_POLLS and RAW_VALID keep their values, as R213's order and R273 have it; R32's "0 if SNSACQ failed
before its first poll" and R29's "SNSACQ failure" are read of an SNSACQ past its guard. DEDUCED (log entry 22). -/
def execSnsacq (s : State) : Host.Outcome State Fault Refusal :=
  if s.snsState = .ready then
    let w := writeEach s.params.snsAddr (s.params.triggerWrites s.cfg.sensor) (s.setPolls 0)
    if w.1 then finish (snsPollThenRead w.2) else finish (snsBusFailure w.2.dropRaw)
  else finish (raise s .sequence)

end Sys2Proof.Machine
end

