-- ==== Sys2Proof/Machine/Dispatch.lean ====
section
/-! DEFINITION. The meaning of each command, one arm per constructor of Instr. -/

namespace Sys2Proof.Machine

open Sys2Proof

def exec (i : Instr) (s : State) : Host.Outcome State Fault Refusal :=
  match i with
  | .nop => Sys2Proof.Machine.execNop s
  | .ldi rd imm => Sys2Proof.Machine.execLdi rd imm s
  | .lui rd imm => Sys2Proof.Machine.execLui rd imm s
  | .get rd idx => Sys2Proof.Machine.execGet rd idx s
  | .put idx rs => Sys2Proof.Machine.execPut idx rs s
  | .bcdenc rd rs => Sys2Proof.Machine.execBcdenc rd rs s
  | .bcddec rd rs => Sys2Proof.Machine.execBcddec rd rs s
  | .wday rd => Sys2Proof.Machine.execWday rd s
  | .tvalid rd => Sys2Proof.Machine.execTvalid rd s
  | .tpack => Sys2Proof.Machine.execTpack s
  | .tunpack => Sys2Proof.Machine.execTunpack s
  | .rtcrd => Sys2Proof.Machine.execRtcrd s
  | .rtcset => Sys2Proof.Machine.execRtcset s
  | .snsid => Sys2Proof.Machine.execSnsid s
  | .snsrst => Sys2Proof.Machine.execSnsrst s
  | .snscfg => Sys2Proof.Machine.execSnscfg s
  | .snscal => Sys2Proof.Machine.execSnscal s
  | .snsacq => Sys2Proof.Machine.execSnsacq s
  | .cmpt => Sys2Proof.Machine.execCmpt s
  | .cmpp => Sys2Proof.Machine.execCmpp s
  | .cmph => Sys2Proof.Machine.execCmph s
  | .cmpg => Sys2Proof.Machine.execCmpg s
  | .cmpaq => Sys2Proof.Machine.execCmpaq s
  | .cmpall => Sys2Proof.Machine.execCmpall s
  | .i2cwr addr reg len => Sys2Proof.Machine.execI2cwr addr reg len s
  | .i2crd addr reg len => Sys2Proof.Machine.execI2crd addr reg len s

end Sys2Proof.Machine
end

