-- ==== Sys2Proof/WellFormed.lean ====
section
/-! DEFINITION. Which commands have an encoding: every operand fits its field (R91). The register, index, address and immediate
operands fit by their types; the byte count of a bus command is a number and must fit its 6-bit field. -/

namespace Sys2Proof

/-- The byte count of format B is a 6-bit field, `len = w[13:8]` (R91, R93). -/
def lenFits (len : Nat) : Bool := decide (len < 64)

/-- A command is well formed where each of its operands fits the field that the encoding gives it (R91). Values the
encoding admits but the command refuses (R97) are well formed. -/
def Instr.wellFormed : Instr → Bool
  | .nop => true
  | .ldi _ _ => true
  | .lui _ _ => true
  | .get _ _ => true
  | .put _ _ => true
  | .bcdenc _ _ => true
  | .bcddec _ _ => true
  | .wday _ => true
  | .tvalid _ => true
  | .tpack => true
  | .tunpack => true
  | .rtcrd => true
  | .rtcset => true
  | .snsid => true
  | .snsrst => true
  | .snscfg => true
  | .snscal => true
  | .snsacq => true
  | .cmpt => true
  | .cmpp => true
  | .cmph => true
  | .cmpg => true
  | .cmpaq => true
  | .cmpall => true
  | .i2cwr _ _ len => lenFits len
  | .i2crd _ _ len => lenFits len

end Sys2Proof
end

