-- ==== Sys2Proof/Decode.lean ====
section
/-! DEFINITION. The opcode map (R94), the six formats (R91), the decoder (R95) and the encoder of the same tables. Decoding is
total on 32-bit words: a word gives one command, or a reason why it is illegal (R96). -/

namespace Sys2Proof

/-- The rows of the opcode map (R94). -/
inductive Opcode where
  | nop | ldi | lui | get | put
  | bcdenc | bcddec | wday | tvalid | tpack | tunpack
  | rtcrd | rtcset
  | snsid | snsrst | snscfg | snscal | snsacq
  | cmpt | cmpp | cmph | cmpg | cmpaq | cmpall
  | i2cwr | i2crd
deriving DecidableEq, Repr

/-- The six command formats (R91). -/
inductive Format where
  /-- N: no operands -/
  | none
  /-- RI: register and 16-bit immediate -/
  | regImm
  /-- RR: two registers -/
  | regReg
  /-- RD: destination register only -/
  | regOnly
  /-- RX: register and register-map index -/
  | regIdx
  /-- B: bus address, length and register offset -/
  | bus
deriving DecidableEq, Repr

/-- Why a word is illegal (R96). -/
inductive Illegal where
  /-- the opcode byte is no row of R94 -/
  | unassignedOpcode (op : BitVec 8)
  /-- the opcode is assigned, and a reserved bit of its format is 1 -/
  | reservedBitSet (op : Opcode)
deriving DecidableEq, Repr

/-- Every row of R94, once. -/
def Opcode.all : List Opcode :=
  [.nop, .ldi, .lui, .get, .put] ++
  [.bcdenc, .bcddec, .wday, .tvalid, .tpack, .tunpack] ++
  [.rtcrd, .rtcset] ++
  [.snsid, .snsrst, .snscfg, .snscal, .snsacq] ++
  [.cmpt, .cmpp, .cmph, .cmpg, .cmpaq, .cmpall] ++
  [.i2cwr, .i2crd]

/-- The opcode byte, `op = w[31:24]` (R94). -/
def Opcode.byte : Opcode → BitVec 8
  | .nop => 0x01
  | .ldi => 0x02
  | .lui => 0x03
  | .get => 0x04
  | .put => 0x05
  | .bcdenc => 0x10
  | .bcddec => 0x11
  | .wday => 0x12
  | .tvalid => 0x13
  | .tpack => 0x14
  | .tunpack => 0x15
  | .rtcrd => 0x20
  | .rtcset => 0x21
  | .snsid => 0x30
  | .snsrst => 0x31
  | .snscfg => 0x32
  | .snscal => 0x33
  | .snsacq => 0x34
  | .cmpt => 0x40
  | .cmpp => 0x41
  | .cmph => 0x42
  | .cmpg => 0x43
  | .cmpaq => 0x44
  | .cmpall => 0x45
  | .i2cwr => 0x50
  | .i2crd => 0x51

/-- The format column of R94. -/
def Opcode.format : Opcode → Format
  | .nop => .none
  | .ldi => .regImm
  | .lui => .regImm
  | .get => .regIdx
  | .put => .regIdx
  | .bcdenc => .regReg
  | .bcddec => .regReg
  | .wday => .regOnly
  | .tvalid => .regOnly
  | .tpack => .none
  | .tunpack => .none
  | .rtcrd => .none
  | .rtcset => .none
  | .snsid => .none
  | .snsrst => .none
  | .snscfg => .none
  | .snscal => .none
  | .snsacq => .none
  | .cmpt => .none
  | .cmpp => .none
  | .cmph => .none
  | .cmpg => .none
  | .cmpaq => .none
  | .cmpall => .none
  | .i2cwr => .bus
  | .i2crd => .bus

/-- The opcode byte of a word, `w[31:24]`. -/
def opcodeByte (w : Word) : BitVec 8 := w.extractLsb' 24 8

/-- The register field `w[23:21]`: rd of RI, RR and RD, r of RX (R91). -/
def fieldRd (w : Word) : GReg := (w.extractLsb' 21 3).toFin

/-- The register field `w[20:18]`: rs of RR (R91). -/
def fieldRs (w : Word) : GReg := (w.extractLsb' 18 3).toFin

/-- `imm16 = w[15:0]` (R91). -/
def fieldImm (w : Word) : BitVec 16 := w.extractLsb' 0 16

/-- `idx = w[7:0]` of RX and `reg = w[7:0]` of B (R91). -/
def fieldLowByte (w : Word) : BitVec 8 := w.extractLsb' 0 8

/-- `addr = w[23:17]` of B (R91). -/
def fieldAddr (w : Word) : DevAddr := w.extractLsb' 17 7

/-- `len = w[13:8]` of B (R91). -/
def fieldLen (w : Word) : Nat := (w.extractLsb' 8 6).toNat

/-- The reserved bits of a format are all 0: N w[23:0], RI w[20:16], RR w[17:0], RD w[20:0], RX w[20:8], B w[16:14]
(R91). -/
def Format.reservedClear (f : Format) (w : Word) : Bool :=
  match f with
  | .none => w.extractLsb' 0 24 == 0
  | .regImm => w.extractLsb' 16 5 == 0
  | .regReg => w.extractLsb' 0 18 == 0
  | .regOnly => w.extractLsb' 0 21 == 0
  | .regIdx => w.extractLsb' 8 13 == 0
  | .bus => w.extractLsb' 14 3 == 0

/-- The row of R94 that an opcode byte selects. -/
def Opcode.ofByte (b : BitVec 8) : Option Opcode := Opcode.all.find? (fun op => op.byte == b)

/-- The command of a row, its operands taken from the word (R93). -/
def Opcode.operands (op : Opcode) (w : Word) : Instr :=
  match op with
  | .nop => .nop
  | .ldi => .ldi (fieldRd w) (fieldImm w)
  | .lui => .lui (fieldRd w) (fieldImm w)
  | .get => .get (fieldRd w) (fieldLowByte w)
  | .put => .put (fieldLowByte w) (fieldRd w)
  | .bcdenc => .bcdenc (fieldRd w) (fieldRs w)
  | .bcddec => .bcddec (fieldRd w) (fieldRs w)
  | .wday => .wday (fieldRd w)
  | .tvalid => .tvalid (fieldRd w)
  | .tpack => .tpack
  | .tunpack => .tunpack
  | .rtcrd => .rtcrd
  | .rtcset => .rtcset
  | .snsid => .snsid
  | .snsrst => .snsrst
  | .snscfg => .snscfg
  | .snscal => .snscal
  | .snsacq => .snsacq
  | .cmpt => .cmpt
  | .cmpp => .cmpp
  | .cmph => .cmph
  | .cmpg => .cmpg
  | .cmpaq => .cmpaq
  | .cmpall => .cmpall
  | .i2cwr => .i2cwr (fieldAddr w) (fieldLowByte w) (fieldLen w)
  | .i2crd => .i2crd (fieldAddr w) (fieldLowByte w) (fieldLen w)

/-- The decoding procedure of R95: the row first, then its reserved bits, then its operands. -/
def decode (w : Word) : Except Illegal Instr :=
  match Opcode.ofByte (opcodeByte w) with
  | none => .error (.unassignedOpcode (opcodeByte w))
  | some op => if op.format.reservedClear w then .ok (op.operands w) else .error (.reservedBitSet op)

/-- A field's value put at its lowest bit, `w[lo + n - 1 : lo]` (R9, R91). -/
def atBit (lo v : Nat) : Nat := v * 2 ^ lo

/-- A word of format N (R91). -/
def encodeNone (op : Opcode) : Word := BitVec.ofNat 32 (atBit 24 op.byte.toNat)

/-- A word of format RI (R91). -/
def encodeRegImm (op : Opcode) (rd : GReg) (imm : BitVec 16) : Word :=
  BitVec.ofNat 32 (atBit 24 op.byte.toNat + atBit 21 rd.val + atBit 0 imm.toNat)

/-- A word of format RR (R91). -/
def encodeRegReg (op : Opcode) (rd rs : GReg) : Word :=
  BitVec.ofNat 32 (atBit 24 op.byte.toNat + atBit 21 rd.val + atBit 18 rs.val)

/-- A word of format RD (R91). -/
def encodeRegOnly (op : Opcode) (rd : GReg) : Word := BitVec.ofNat 32 (atBit 24 op.byte.toNat + atBit 21 rd.val)

/-- A word of format RX (R91). -/
def encodeRegIdx (op : Opcode) (r : GReg) (idx : BitVec 8) : Word :=
  BitVec.ofNat 32 (atBit 24 op.byte.toNat + atBit 21 r.val + atBit 0 idx.toNat)

/-- A word of format B (R91). -/
def encodeBus (op : Opcode) (addr : DevAddr) (reg : RegOffset) (len : Nat) : Word :=
  BitVec.ofNat 32 (atBit 24 op.byte.toNat + atBit 17 addr.toNat + atBit 8 (len % 64) + atBit 0 reg.toNat)

/-- The row of a command (R94). -/
def Instr.opcode : Instr → Opcode
  | .nop => .nop
  | .ldi _ _ => .ldi
  | .lui _ _ => .lui
  | .get _ _ => .get
  | .put _ _ => .put
  | .bcdenc _ _ => .bcdenc
  | .bcddec _ _ => .bcddec
  | .wday _ => .wday
  | .tvalid _ => .tvalid
  | .tpack => .tpack
  | .tunpack => .tunpack
  | .rtcrd => .rtcrd
  | .rtcset => .rtcset
  | .snsid => .snsid
  | .snsrst => .snsrst
  | .snscfg => .snscfg
  | .snscal => .snscal
  | .snsacq => .snsacq
  | .cmpt => .cmpt
  | .cmpp => .cmpp
  | .cmph => .cmph
  | .cmpg => .cmpg
  | .cmpaq => .cmpaq
  | .cmpall => .cmpall
  | .i2cwr _ _ _ => .i2cwr
  | .i2crd _ _ _ => .i2crd

/-- The command word of a well-formed command (R91, R94). Every command is one word (R90). -/
def encode (i : Instr) : Word :=
  match i with
  | .nop => encodeNone i.opcode
  | .ldi rd imm => encodeRegImm i.opcode rd imm
  | .lui rd imm => encodeRegImm i.opcode rd imm
  | .get rd idx => encodeRegIdx i.opcode rd idx
  | .put idx rs => encodeRegIdx i.opcode rs idx
  | .bcdenc rd rs => encodeRegReg i.opcode rd rs
  | .bcddec rd rs => encodeRegReg i.opcode rd rs
  | .wday rd => encodeRegOnly i.opcode rd
  | .tvalid rd => encodeRegOnly i.opcode rd
  | .tpack => encodeNone i.opcode
  | .tunpack => encodeNone i.opcode
  | .rtcrd => encodeNone i.opcode
  | .rtcset => encodeNone i.opcode
  | .snsid => encodeNone i.opcode
  | .snsrst => encodeNone i.opcode
  | .snscfg => encodeNone i.opcode
  | .snscal => encodeNone i.opcode
  | .snsacq => encodeNone i.opcode
  | .cmpt => encodeNone i.opcode
  | .cmpp => encodeNone i.opcode
  | .cmph => encodeNone i.opcode
  | .cmpg => encodeNone i.opcode
  | .cmpaq => encodeNone i.opcode
  | .cmpall => encodeNone i.opcode
  | .i2cwr addr reg len => encodeBus i.opcode addr reg len
  | .i2crd addr reg len => encodeBus i.opcode addr reg len

/-- The command the decoder reads from a command of `nbits` bits `w`. A command word is delivered whole (R90), so the only
length is 32 bits; bits above `nbits` are 0. -/
def decodeTableWord (nbits w : Nat) : Option Instr :=
  if nbits ≤ 32 then
    match decode (BitVec.ofNat 32 (w % 2 ^ nbits)) with
    | .ok i => some i
    | .error _ => none
  else none

end Sys2Proof
end

