-- ==== Sys2Proof/Machine/HostPort.lean ====
section
/-! DEFINITION. The host's two ports, the reset input and the test harness of the bus (R44, R60, R70-R74, R300): everything that
reaches the block from outside, one access at a time and never during a command (R80, R85). -/

namespace Sys2Proof.Machine

/-- `HostRead(idx)`: the register, or 0 where the index is unassigned (R44). -/
def State.hostRead (s : State) (idx : BitVec 8) : Word :=
  match Reg.ofIndex idx with
  | none => 0
  | some r => readReg s r

/-- `HostWrite(idx, v)`: as PUT for a writable register, ignored for a read-only or unassigned index; ERR and ERRMASK record
nothing (R44). A HostWrite to ERRMASK itself clears bits of it, as R25 says: DEDUCED (log entry 8). -/
def State.hostWrite (s : State) (idx : BitVec 8) (v : Word) : State :=
  match Reg.ofIndex idx with
  | none => s
  | some r => if r.readOnly then s else writeReg s r v

/-- The reset input: every block register takes its reset value; the bus and its devices, the parameters and the host are
untouched (R300). -/
def State.resetBlock (s : State) : State :=
  { State.resetOn s.paramSel s.bus with port := s.port, hostData := s.hostData }

/-- What the test harness does to the bus (R70, R74), and the answers a Real bus will give: answerNext is the
model's own, a DESIGN CHOICE (R62, log entry 4). -/
def Bus.harness (b : Bus) : HarnessOp → Bus
  | .setPresent ds => { b with present := ds }
  | .seed a r v => { b with map := b.map.write (busKey a r 0) v }
  | .setFault on => { b with fault := on }
  | .answerNext as => { b with kind := .real as }

/-- What the block meets next. -/
inductive PortEvent where
  /-- no access is pending: the block is "idle between commands and keeps all state" (R284) -/
  | idle
  /-- a command word, and the state in which it runs -/
  | command (w : Word) (s : State)
  /-- an access that is no command, and the state after it -/
  | other (s : State)
deriving DecidableEq, Repr

/-- Take the next access from the host's side and make it, but for a command, which `step` runs (R60, R80). -/
def State.nextEvent (s : State) : PortEvent :=
  match s.port with
  | [] => .idle
  | op :: rest =>
    let s := s.setPort rest
    match op with
    | .issue w => .command w s
    | .read idx => .other (s.setHostData (s.hostRead idx))
    | .write idx v => .other (s.hostWrite idx v)
    | .reset => .other s.resetBlock
    | .harness h => .other (s.setBus (s.bus.harness h))

/-- `HostIssue(w)` as the next access (R60): the block fetches nothing, every command arrives on the host command port
(R83). -/
def State.issueNext (s : State) (w : Word) : State := s.setPort (.issue w :: s.port)

end Sys2Proof.Machine
end

