-- ==== Sys2Proof/Machine/Step.lean ====
section
/-! DEFINITION. One step of the machine: the next access of the outside, and a command it carries run to completion (R60, R80). -/

namespace Sys2Proof.Machine

/-- Run a command word: decode it (R95), then its rule; an illegal word completes with IllegalCommand (R96). -/
def runWord (w : Word) (s : State) : Host.Outcome State Fault Refusal :=
  match decode w with
  | .ok i => exec i s
  | .error _ => illegalCommand s

/-- One step: idle, one command, or one other access (R80). -/
def step (s : State) : Host.Outcome State Fault Refusal :=
  match s.nextEvent with
  | .idle => .next s
  | .command w s' => runWord w s'
  | .other s' => .next s'

/-- The state with a command word, given as a table number, as the host's very next access (R90, R60). -/
def State.withFetchWord (s : State) (nbits w : Nat) : State := s.issueNext (BitVec.ofNat 32 (w % 2 ^ nbits))

end Sys2Proof.Machine
end

