-- ==== Sys2Proof/Machine/Assembler.lean ====
section
/-! DEFINITION. Assembler lines (R98) and the pseudo-commands (R99). The block itself sees command words only; this file says
which commands a line of the spec's notation stands for. -/

namespace Sys2Proof.Machine

/-- A pseudo-command (R99). -/
inductive Pseudo where
  /-- MOV Gd, Gs -/
  | mov (rd rs : GReg)
  /-- LI Gd, imm32 -/
  | li (rd : GReg) (imm : Word)
  /-- CLR Gd -/
  | clr (rd : GReg)
  /-- CLRERR Gt -/
  | clrErr (rt : GReg)
  /-- SETF idx, imm16, Gt -/
  | setf (idx : BitVec 8) (imm : BitVec 16) (rt : GReg)
deriving DecidableEq, Repr

/-- The commands a pseudo-command stands for, in order (R99). -/
def Pseudo.expand : Pseudo → List Instr
  | .mov rd rs => [.get rd (Reg.index (.g rs))]
  | .li rd imm =>
    if imm.extractLsb' 16 16 = 0 then [.ldi rd (imm.extractLsb' 0 16)]
    else [.ldi rd (imm.extractLsb' 0 16), .lui rd (imm.extractLsb' 16 16)]
  | .clr rd => [.ldi rd 0]
  | .clrErr rt => [.ldi rt 0xFFFF, .put (Reg.index .errmask) rt]
  | .setf idx imm rt => [.ldi rt imm, .put idx rt]

/-- The names of the registers with a name of their own (R21). -/
def regNames : List (String × Reg) :=
  [("ERR", .err), ("ERRMASK", .errmask), ("RTC_STATE", .rtcState), ("RTC_DEV", .rtcDev), ("SNS_STATE", .snsState),
   ("SNS_DEV", .snsDev), ("FLAGS", .flags), ("LAST_POLLS", .lastPolls)] ++
  [("TIME_SEC", .timeSec), ("TIME_MIN", .timeMin), ("TIME_HOUR", .timeHour), ("TIME_WDAY", .timeWday),
   ("TIME_DAY", .timeDay), ("TIME_MONTH", .timeMonth), ("TIME_YEAR", .timeYear)] ++
  [("RAW_T", .rawT), ("RAW_P", .rawP), ("RAW_H", .rawH), ("RAW_G", .rawG), ("RAW_GR", .rawGr), ("RAW_HS", .rawHs)] ++
  [("T_FINE", .tFine), ("OUT_T", .outT), ("OUT_P", .outP), ("OUT_H", .outH), ("OUT_G", .outG), ("OUT_AQ", .outAq)] ++
  [("CFG_EPOCH", .cfgEpoch), ("CFG_MAXRETRY", .cfgMaxRetry), ("CFG_OS_T", .cfgOsT), ("CFG_OS_P", .cfgOsP),
   ("CFG_OS_H", .cfgOsH), ("CFG_FILTER", .cfgFilter), ("CFG_HEAT_RES", .cfgHeatRes), ("CFG_HEAT_DUR", .cfgHeatDur),
   ("CFG_AQN", .cfgAqn)]

/-- The names of the numbered registers, without their number, with the first index and the size of each run (R21, R98). -/
def runNames : List (String × Nat × Nat) := [("G", 0x00, 8), ("CFG_AQB", 0x48, 7), ("CALBUF", 0x80, 64), ("BUF", 0xC0, 32)]

/-- The value of a digit of base 10 or 16; hexadecimal digits of either case. DESIGN CHOICE, safe (log entry 21). -/
def digitValue (base : Nat) (c : Char) : Option Nat :=
  let n := c.toNat
  let v := if 48 ≤ n ∧ n ≤ 57 then n - 48 else if 65 ≤ n ∧ n ≤ 70 then n - 55 else if 97 ≤ n ∧ n ≤ 102 then n - 87 else 16
  if v < base then some v else none

/-- The digits of a number, most significant first, after those read already. -/
def digitsFrom (base acc : Nat) : List Char → Option Nat
  | [] => some acc
  | c :: cs =>
    match digitValue base c with
    | some v => digitsFrom base (acc * base + v) cs
    | none => none

/-- A number, decimal or `0x` hexadecimal (R98). Leading zeros are read.
DESIGN CHOICE, safe: the rule shows no number with a leading zero (log entry 21). -/
def parseNumber : List Char → Option Nat
  | [] => none
  | '0' :: 'x' :: c :: cs => digitsFrom 16 0 (c :: cs)
  | c :: cs => digitsFrom 10 0 (c :: cs)

/-- A number below a bound. -/
def parseBelow (most : Nat) (t : List Char) : Option Nat :=
  match parseNumber t with
  | some n => if n < most then some n else none
  | none => none

/-- What follows `p` in `t`, where `t` begins with `p`. -/
def dropLead : List Char → List Char → Option (List Char)
  | [], t => some t
  | _ :: _, [] => none
  | a :: p, b :: t => if a = b then dropLead p t else none

/-- `G0`..`G7` (R98). The number may be any spelling `parseNumber` reads, so `G007` and `G0x5` are registers too.
DESIGN CHOICE, safe: the rule shows only `G0`..`G7` (log entry 19). -/
def parseGReg (t : List Char) : Option GReg :=
  match dropLead ['G'] t with
  | some n => (parseBelow 8 n).map (fun k => Fin.ofNat 8 k)
  | none => none

/-- The index of a numbered register written with its name, such as `BUF3` (R98). The number may be any spelling `parseNumber`
reads, so `BUF03` and `BUF0x3` name the same register.
DESIGN CHOICE, safe: the rule shows only plain decimal numbers in names (log entry 19). -/
def parseRunName (t : List Char) : List (String × Nat × Nat) → Option (BitVec 8)
  | [] => none
  | (name, base, size) :: rest =>
    match dropLead name.toList t with
    | some n =>
      match parseBelow size n with
      | some k => some (BitVec.ofNat 8 (base + k))
      | none => parseRunName t rest
    | none => parseRunName t rest

/-- A register index, "by its name from 10_state.md rule R21 ... or as a number" (R98). -/
def parseIndex (t : List Char) : Option (BitVec 8) :=
  match regNames.find? (fun r => r.1.toList == t) with
  | some r => some r.2.index
  | none =>
    match parseRunName t runNames with
    | some i => some i
    | none => (parseBelow 256 t).map (BitVec.ofNat 8)

/-- The operands between the commas of a line's rest, without any space (R98). DESIGN CHOICE, safe (log entry 21). -/
def splitOperands (cur : List Char) : List Char → List (List Char)
  | [] => [cur.reverse]
  | ',' :: cs => cur.reverse :: splitOperands [] cs
  | ' ' :: cs => splitOperands cur cs
  | c :: cs => splitOperands (c :: cur) cs

/-- The mnemonic of a line and what follows it. -/
def splitMnemonic : List Char → List Char × List Char
  | [] => ([], [])
  | ' ' :: cs => ([], cs)
  | c :: cs => let r := splitMnemonic cs; (c :: r.1, r.2)

/-- The commands without operands, by mnemonic (R94, R98). -/
def plainCommands : List (String × Instr) :=
  [("NOP", .nop), ("TPACK", .tpack), ("TUNPACK", .tunpack), ("RTCRD", .rtcrd), ("RTCSET", .rtcset)] ++
  [("SNSID", .snsid), ("SNSRST", .snsrst), ("SNSCFG", .snscfg), ("SNSCAL", .snscal), ("SNSACQ", .snsacq)] ++
  [("CMPT", .cmpt), ("CMPP", .cmpp), ("CMPH", .cmph), ("CMPG", .cmpg), ("CMPAQ", .cmpaq), ("CMPALL", .cmpall)]

/-- The command or pseudo-command of a mnemonic with one operand. -/
def assemble1 (m : String) (a : List Char) : Option (List Instr) := do
  let r ← parseGReg a
  match m with
  | "WDAY" => some [.wday r]
  | "TVALID" => some [.tvalid r]
  | "CLR" => some (Pseudo.clr r).expand
  | "CLRERR" => some (Pseudo.clrErr r).expand
  | _ => none

/-- The command or pseudo-command of a mnemonic with two operands. -/
def assemble2 (m : String) (a b : List Char) : Option (List Instr) :=
  match m with
  | "LDI" => do some [.ldi (← parseGReg a) (BitVec.ofNat 16 (← parseBelow 65536 b))]
  | "LUI" => do some [.lui (← parseGReg a) (BitVec.ofNat 16 (← parseBelow 65536 b))]
  | "GET" => do some [.get (← parseGReg a) (← parseIndex b)]
  | "PUT" => do some [.put (← parseIndex a) (← parseGReg b)]
  | "BCDENC" => do some [.bcdenc (← parseGReg a) (← parseGReg b)]
  | "BCDDEC" => do some [.bcddec (← parseGReg a) (← parseGReg b)]
  | "MOV" => do some (Pseudo.mov (← parseGReg a) (← parseGReg b)).expand
  | "LI" => do some (Pseudo.li (← parseGReg a) (BitVec.ofNat 32 (← parseBelow 4294967296 b))).expand
  | _ => none

/-- The command or pseudo-command of a mnemonic with three operands. -/
def assemble3 (m : String) (a b c : List Char) : Option (List Instr) :=
  match m with
  | "I2CWR" => do
    some [.i2cwr (BitVec.ofNat 7 (← parseBelow 128 a)) (BitVec.ofNat 8 (← parseBelow 256 b)) (← parseBelow 64 c)]
  | "I2CRD" => do
    some [.i2crd (BitVec.ofNat 7 (← parseBelow 128 a)) (BitVec.ofNat 8 (← parseBelow 256 b)) (← parseBelow 64 c)]
  | "SETF" => do
    some (Pseudo.setf (← parseIndex a) (BitVec.ofNat 16 (← parseBelow 65536 b)) (← parseGReg c)).expand
  | _ => none

/-- The commands that one assembler line stands for, none where the line is no line of R98 or R99. -/
def assemble (line : String) : Option (List Instr) :=
  let parts := splitMnemonic line.toList
  let m := String.ofList parts.1
  match splitOperands [] parts.2 with
  | [[]] => (plainCommands.find? (fun r => r.1 == m)).map (fun r => [r.2])
  | [a] => assemble1 m a
  | [a, b] => assemble2 m a b
  | [a, b, c] => assemble3 m a b c
  | _ => none

end Sys2Proof.Machine
end

