-- ==== Sys2Proof/Safety.lean ====
section
/-! DEFINITION. The terms the statements are written in: what a completed command may change, the invariants of the block, and the
tables of R186, R190 and R321. -/

namespace Sys2Proof.Machine

open Sys2Proof.Config (Request Transaction)

/-! ### What a completed command changes -/

/-- Every register of the register map that `W` does not name reads the same in both states. -/
def SameBut (W : Reg → Prop) (s t : State) : Prop := ∀ r, ¬ W r → readReg t r = readReg s r

/-- What surrounds the block, apart from the bus, is the same in both states. -/
def SameOutside (s t : State) : Prop := t.paramSel = s.paramSel ∧ t.port = s.port ∧ t.hostData = s.hostData

/-- Completion with code `e` as R272 records it: ERR holds the code, ERRMASK has gained bit e for a code other than OK and
lost none. -/
def Recorded (e : ErrCode) (s t : State) : Prop :=
  t.err = e ∧ ∀ k < 16, t.errmask.getLsbD k = (s.errmask.getLsbD k || (decide (e ≠ .ok) && k == e.number.toNat))

/-- A command completed with code `e`, having written no register but those of `W`, ERR and ERRMASK; of its surroundings it
changed nothing but, perhaps, the bus. -/
def Completes (e : ErrCode) (W : Reg → Prop) (s t : State) : Prop :=
  Recorded e s t ∧ SameBut (fun r => r = .err ∨ r = .errmask ∨ W r) s t ∧ SameOutside s t

/-- `Completes`, and no bus transaction was made. -/
def CompletesOffBus (e : ErrCode) (W : Reg → Prop) (s t : State) : Prop := Completes e W s t ∧ t.bus = s.bus

/-- No register. -/
def noReg : Reg → Prop := fun _ => False

/-- The seven TIME registers. -/
def timeReg (r : Reg) : Prop :=
  r = .timeSec ∨ r = .timeMin ∨ r = .timeHour ∨ r = .timeWday ∨ r = .timeDay ∨ r = .timeMonth ∨ r = .timeYear

/-- The six RAW registers. -/
def rawReg (r : Reg) : Prop := r = .rawT ∨ r = .rawP ∨ r = .rawH ∨ r = .rawG ∨ r = .rawGr ∨ r = .rawHs

/-- BUF[lo .. hi - 1]. -/
def bufRange (lo hi : Nat) (r : Reg) : Prop := ∃ i : Fin 32, r = .buf i ∧ lo ≤ i.val ∧ i.val < hi

/-- CALBUF[0 .. hi - 1]. -/
def calRange (hi : Nat) (r : Reg) : Prop := ∃ i : Fin 64, r = .calbuf i ∧ i.val < hi

/-! ### Invariants -/

/-- ERRMASK holds only bits of the codes 1..8: bit 0 and the bits of the codes that are "never produced" are 0 (R25,
R270). -/
def State.errmaskLegal (s : State) : Prop := ∀ k < 16, s.errmask.getLsbD k = true → 1 ≤ k ∧ k ≤ 8

/-- CFG_MAXRETRY is "always 1..255" (R38). -/
def State.retryLegal (s : State) : Prop := s.cfg.maxRetry ≠ 0

/-- RTC_STATE and RTC_DEV stand in a pair that R186's table leads to. -/
def State.rtcCoherent (s : State) : Prop :=
  match s.rtcState with
  | .unchecked => s.rtcDev = .uninitialized ∨ s.rtcDev = .notResponding
  | .valid => s.rtcDev = .ready
  | .invalid => s.rtcDev = .ready ∨ s.rtcDev = .calibrationInvalid
  | .justSet => s.rtcDev = .ready

/-- SNS_STATE and SNS_DEV stand in a pair that R190's table leads to. -/
def State.snsCoherent (s : State) : Prop :=
  match s.snsState with
  | .powerOn => s.snsDev = .uninitialized
  | .identityChecked => s.snsDev = .uninitialized
  | .reset => s.snsDev = .uninitialized
  | .configured => s.snsDev = .uninitialized
  | .ready => s.snsDev = .ready
  | .halted => s.snsDev = .notResponding ∨ s.snsDev = .identityMismatch ∨ s.snsDev = .calibrationInvalid

/-- P_DONE and H_DONE never stand without T_DONE, nor AQ_DONE without the four other done bits (R29, R230). -/
def Flags.ordered (f : Flags) : Prop :=
  (f.pDone = true → f.tDone = true) ∧ (f.hDone = true → f.tDone = true) ∧
    (f.aqDone = true → f.tDone = true ∧ f.pDone = true ∧ f.hDone = true ∧ f.gDone = true)

/-- The done bits stand in order, and each that stands says that its output register holds what the compensation functions
make of the inputs the block holds now (R29). -/
structure State.Current (s : State) : Prop where
  ordered : s.flags.ordered
  temperature : s.flags.tDone = true → ∃ tf t, s.compT = some (tf, t) ∧ s.tFine = wrap32 tf ∧ s.out.t = wrap32 t
  pressure : s.flags.pDone = true → ∃ p, s.compP = some p ∧ s.out.p = wrap32 p
  humidity : s.flags.hDone = true → ∃ h, s.compH = some h ∧ s.out.h = wrap32 h
  gas : s.flags.gDone = true → ∃ g, s.compG = some g ∧ s.out.g = wrap32 g
  airQuality : s.flags.aqDone = true → s.out.aq.toNat = aqBucket s.cfg s.aqIndex

/-- A transaction the block may issue: 1 to 64 bytes, at registers 0..255 (R63-R66). -/
def requestLegal : Request → Prop
  | .write _ r bs => 1 ≤ bs.length ∧ bs.length ≤ 64 ∧ r.toNat + bs.length ≤ 256
  | .read _ r n => 1 ≤ n ∧ n ≤ 64 ∧ r.toNat + n ≤ 256

/-! ### Encodings and indices, as the tables give them -/

/-- The bits a format reserves (R91). -/
def reservedMask : Format → Word
  | .none => 0x00FFFFFF
  | .regImm => 0x001F0000
  | .regReg => 0x0003FFFF
  | .regOnly => 0x001FFFFF
  | .regIdx => 0x001FFF00
  | .bus => 0x0001C000

/-- A word of the illegal space: its opcode byte is in no row, or a reserved bit of its row's format is 1 (R96). -/
def illegalWord (w : Word) : Prop :=
  (∀ op : Opcode, op.byte ≠ w.extractLsb' 24 8) ∨
    ∃ op : Opcode, op.byte = w.extractLsb' 24 8 ∧ w &&& reservedMask op.format ≠ 0

/-- The assigned indices (R21). -/
def assignedIndex (idx : BitVec 8) : Prop :=
  idx ≤ 0x16 ∨ (0x20 ≤ idx ∧ idx ≤ 0x25) ∨ idx = 0x28 ∨ (0x30 ≤ idx ∧ idx ≤ 0x34) ∨ (0x40 ≤ idx ∧ idx ≤ 0x4F) ∨
    (0x80 ≤ idx ∧ idx ≤ 0xDF)

/-- The read-only indices: ERR, RTC_STATE..SNS_DEV, LAST_POLLS, T_FINE and OUT_T..OUT_AQ (R21, R120). -/
def readOnlyIndex (idx : BitVec 8) : Prop :=
  idx = 0x08 ∨ (0x0A ≤ idx ∧ idx ≤ 0x0D) ∨ idx = 0x0F ∨ idx = 0x28 ∨ (0x30 ≤ idx ∧ idx ≤ 0x34)

/-- The indices whose write stores some of the written bits and has no side effect: G, TIME, CFG_EPOCH, CFG_OS_*, CFG_FILTER,
CFG_HEAT_* and BUF (R120). -/
def plainIndex (idx : BitVec 8) : Prop :=
  idx ≤ 0x07 ∨ (0x10 ≤ idx ∧ idx ≤ 0x16) ∨ idx = 0x40 ∨ (0x42 ≤ idx ∧ idx ≤ 0x47) ∨ (0xC0 ≤ idx ∧ idx ≤ 0xDF)

/-- The indices whose write is a staling event besides FLAGS: RAW_* and CALBUF (R31). -/
def stalingIndex (idx : BitVec 8) : Prop := (0x20 ≤ idx ∧ idx ≤ 0x25) ∨ (0x80 ≤ idx ∧ idx ≤ 0xBF)

/-- The indices whose write clears AQ_DONE: CFG_AQB0..6 and CFG_AQN (R40). -/
def bucketIndex (idx : BitVec 8) : Prop := 0x48 ≤ idx ∧ idx ≤ 0x4F

/-- The bits of a written value that a register stores (R21, R121). -/
def storedMask (idx : BitVec 8) : Word :=
  if idx = 0x24 then 0xF
  else if idx = 0x25 then 0x1
  else if idx = 0x40 then 0xFFFF
  else if (0x42 ≤ idx ∧ idx ≤ 0x45) ∨ idx = 0x4F then 0x7
  else if idx = 0x46 ∨ idx = 0x47 ∨ 0x80 ≤ idx then 0xFF
  else 0xFFFFFFFF

/-- The reset value at an index: 0 but for CFG_EPOCH and CFG_MAXRETRY; an unassigned index reads 0 (R21, R44). -/
def resetValue (idx : BitVec 8) : Word := if idx = 0x40 then 2024 else if idx = 0x41 then 10 else 0

/-! ### Time, by the calendar -/

/-- The days of a year: 366 where `(y mod 4 = 0 and y mod 100 != 0) or y mod 400 = 0` (R158). -/
def yearDays (y : Nat) : Nat := if (y % 4 = 0 ∧ y % 100 ≠ 0) ∨ y % 400 = 0 then 366 else 365

/-- The days of a year before the first of a month. -/
def daysBeforeMonth (y m : Nat) : Nat :=
  [0, 31, 59, 90, 120, 151, 181, 212, 243, 273, 304, 334].getD (m - 1) 0 + (if 3 ≤ m then yearDays y - 365 else 0)

/-- The days from 2000-01-01, a Saturday, to a date: the reference calendar of R159, counted day by day. -/
def dayNumber (y m d : Nat) : Nat :=
  ((List.range (y - 2000)).map (fun k => yearDays (2000 + k))).sum + daysBeforeMonth y m + (d - 1)

/-- The date fields in their natural ranges, the day in 1..31 (R157). -/
def dateFits (t : RtcTime) : Prop :=
  2000 ≤ t.year.toNat ∧ t.year.toNat ≤ 2099 ∧ 1 ≤ t.month.toNat ∧ t.month.toNat ≤ 12 ∧ 1 ≤ t.day.toNat ∧ t.day.toNat ≤ 31

/-- The clock fields in their natural ranges (R155). -/
def clockFits (t : RtcTime) : Prop := t.hour.toNat ≤ 23 ∧ t.minute.toNat ≤ 59 ∧ t.second.toNat ≤ 59

/-- isTimeValid (R160). -/
def validTime (t : RtcTime) (epoch : BitVec 16) : Prop := epoch.toNat ≤ t.year.toNat ∧ dateFits t ∧ clockFits t

/-- The BCD byte of a value below 100: tens digit in the upper nibble, units digit in the lower (R150). -/
def bcdByte (v : Nat) : Byte := BitVec.ofNat 8 (v / 10 * 16 + v % 10)

/-- The value of a byte by the decode formula, `high_nibble*10 + low_nibble` (R152). -/
def bcdValue (b : Byte) : Nat := b.toNat / 16 * 10 + b.toNat % 16

/-- A staged time holds what seven bytes decode to, the year as 2000 + the last byte's value (R156, R167). -/
def decodesTo (c : Fin 7 → Byte) (t : RtcTime) : Prop :=
  t.second.toNat = bcdValue (c 0) ∧ t.minute.toNat = bcdValue (c 1) ∧ t.hour.toNat = bcdValue (c 2) ∧
    t.weekday.toNat = bcdValue (c 3) ∧ t.day.toNat = bcdValue (c 4) ∧ t.month.toNat = bcdValue (c 5) ∧
    t.year.toNat = 2000 + bcdValue (c 6)

/-- The fields of a time in the order of the BCD time block, the year as year - 2000 (R155, R156). -/
def timeFields (t : RtcTime) : List Nat :=
  [t.second.toNat, t.minute.toNat, t.hour.toNat, t.weekday.toNat, t.day.toNat, t.month.toNat, t.year.toNat - 2000]

/-- The weekday of a staged date, 0 = Monday, by the reference calendar: 2000-01-01 was a Saturday (R158, R159). -/
def RtcTime.calendarWeekday (t : RtcTime) : Nat := (5 + dayNumber t.year.toNat t.month.toNat t.day.toNat) % 7

/-- The seven bytes RTCSET writes: each field's BCD byte with the chip's set bits, the weekday computed (R181). -/
def State.rtcBlock (s : State) (i : Fin 7) : Byte :=
  bcdByte ((timeFields { s.time with weekday := word s.time.calendarWeekday }).getD i 0) ||| s.params.rtcSetBits[i]

/-- The same bytes, in the order of the BCD time block. -/
def State.rtcBlockBytes (s : State) : List Byte := List.ofFn s.rtcBlock

/-- A state in which RTCSET passes its guard and its range checks (R180, R181). -/
def State.rtcSettable (s : State) : Prop :=
  (s.rtcState = .invalid ∨ s.rtcState = .justSet) ∧ dateFits s.time ∧ clockFits s.time

/-! ### Sequences of commands -/

/-- Commands one after another, each on the state the one before left (R80). -/
def runCommands : List Instr → State → Host.Outcome State Fault Refusal
  | [], s => .next s
  | i :: is, s =>
    match exec i s with
    | .next t => runCommands is t
    | .fault f => .fault f
    | .refused r => .refused r

/-- Commands one after another up to the first that completes with a code other than OK. -/
def runUntilError : List Instr → State → Host.Outcome State Fault Refusal
  | [], s => .next s
  | i :: is, s =>
    match exec i s with
    | .next t => if t.err = .ok then runUntilError is t else .next t
    | .fault f => .fault f
    | .refused r => .refused r

/-- The compensation commands. -/
def compensationCommand (i : Instr) : Prop :=
  i = .cmpt ∨ i = .cmpp ∨ i = .cmph ∨ i = .cmpg ∨ i = .cmpaq ∨ i = .cmpall

/-! ### Tables -/

/-- The six RAW registers hold an extracted sample, each its low bits (R213, R216). -/
def holdsSample (x : Config.Extracted) (t : State) : Prop :=
  (readReg t .rawT).toNat = x.rawT % 2 ^ 32 ∧ (readReg t .rawP).toNat = x.rawP % 2 ^ 32 ∧
    (readReg t .rawH).toNat = x.rawH % 2 ^ 32 ∧ (readReg t .rawG).toNat = x.rawG % 2 ^ 32 ∧
    (readReg t .rawGr).toNat = x.gasRange % 16 ∧ (readReg t .rawHs).toNat = x.heatStab % 2

/-- The byte register `reg` of device `addr` on the Simulated bus (R61, R72). -/
def State.deviceByte (s : State) (addr : DevAddr) (reg : RegOffset) : Byte := s.bus.map.read (busKey addr reg 0)

/-- A device of a Simulated bus that answers: present, and FAULT false (R71, R72). -/
def State.simPresent (s : State) (addr : DevAddr) : Prop :=
  s.bus.kind = .simulated ∧ addr ∈ s.bus.present ∧ s.bus.fault = false

/-- A list of transactions, oldest first, that are one-byte writes to a device from a list, in list order, each one
acknowledged but perhaps the last: it ends at the first NAK (R201, R213). -/
def WritesInOrder (addr : DevAddr) (l : List Config.RegWrite) (made : List Transaction) : Prop :=
  made.map (·.request) = (l.take made.length).map (fun w => Request.write addr w.1 [w.2]) ∧
    ∀ x ∈ made.dropLast, x.answer ≠ .nak

/-- The bus after a list of transactions, oldest first, each issued after the one before was answered (R80). -/
def Bus.afterAll (b : Bus) (made : List Transaction) : Bus := made.foldl (fun b x => b.after x.request) b

/-- The most bus transactions a command makes (R321). -/
def maxTransactions (i : Instr) (s : State) : Nat :=
  match i with
  | .nop | .ldi _ _ | .lui _ _ | .get _ _ | .put _ _ => 0
  | .bcdenc _ _ | .bcddec _ _ | .wday _ | .tvalid _ | .tpack | .tunpack => 0
  | .cmpt | .cmpp | .cmph | .cmpg | .cmpaq | .cmpall => 0
  | .i2cwr _ _ _ | .i2crd _ _ _ | .rtcrd | .snsid | .snsrst | .snscal => 1
  | .rtcset => 2
  | .snscfg => (s.params.cfgWrites s.cfg.sensor).length
  | .snsacq => (s.params.triggerWrites s.cfg.sensor).length + s.cfg.maxRetry.toNat + 1

/-- The transitions of R186: RTC_STATE and RTC_DEV before, the command, the code it completes with, whether the time it left
staged is valid by isTimeValid (R176), and both registers after. -/
def RtcMove (st : RtcState) (dev : DeviceStatus) (i : Instr) (e : ErrCode) (valid : Prop) (st' : RtcState)
    (dev' : DeviceStatus) : Prop :=
  match i with
  | .rtcrd =>
    (e = .ok ∧ (valid → st' = .valid) ∧ (¬ valid → st' = .invalid) ∧ dev' = .ready) ∨
      (e = .busError ∧ st' = .unchecked ∧ dev' = .notResponding)
  | .rtcset =>
    if st = .unchecked ∨ st = .valid then e = .sequence ∧ st' = st ∧ dev' = dev
    else
      (e = .argRange ∧ st' = st ∧ dev' = dev) ∨ (e = .busError ∧ st' = .unchecked ∧ dev' = .notResponding) ∨
        (e = .calibrationInvalid ∧ st' = .invalid ∧ dev' = .calibrationInvalid) ∨
        (e = .ok ∧ st' = .justSet ∧ dev' = .ready)
  | _ => st' = st ∧ dev' = dev

/-- The state a sensor command other than SNSID requires (R190). -/
def snsRequired : Instr → Option SnsState
  | .snsrst => some .identityChecked
  | .snscfg => some .reset
  | .snscal => some .configured
  | .snsacq => some .ready
  | _ => none

/-- The outcomes of a sensor command in the state it requires (R190). -/
def snsOutcome (dev : DeviceStatus) (i : Instr) (e : ErrCode) (st' : SnsState) (dev' : DeviceStatus) : Prop :=
  match i with
  | .snsid =>
    (e = .ok ∧ st' = .identityChecked ∧ dev' = .uninitialized) ∨
      (e = .identityMismatch ∧ st' = .halted ∧ dev' = .identityMismatch) ∨
      (e = .busError ∧ st' = .halted ∧ dev' = .notResponding)
  | .snsrst => (e = .ok ∧ st' = .reset ∧ dev' = dev) ∨ (e = .busError ∧ st' = .halted ∧ dev' = .notResponding)
  | .snscfg => (e = .ok ∧ st' = .configured ∧ dev' = dev) ∨ (e = .busError ∧ st' = .halted ∧ dev' = .notResponding)
  | .snscal =>
    (e = .ok ∧ st' = .ready ∧ dev' = .ready) ∨ (e = .busError ∧ st' = .halted ∧ dev' = .notResponding) ∨
      (e = .calibrationInvalid ∧ st' = .halted ∧ dev' = .calibrationInvalid)
  | .snsacq =>
    (e = .ok ∧ st' = .ready ∧ dev' = .ready) ∨ (e = .busError ∧ st' = .halted ∧ dev' = .notResponding) ∨
      (e = .notResponding ∧ st' = .halted ∧ dev' = .notResponding)
  | _ => False

/-- The transitions of R190. -/
def SnsMove (st : SnsState) (dev : DeviceStatus) (i : Instr) (e : ErrCode) (st' : SnsState) (dev' : DeviceStatus) : Prop :=
  match snsRequired i with
  | some need =>
    if st = need then snsOutcome dev i e st' dev' else e = .sequence ∧ st' = st ∧ dev' = dev
  | none => if i = .snsid then snsOutcome dev i e st' dev' else st' = st ∧ dev' = dev

end Sys2Proof.Machine
end

