-- ==== Sys2Proof/Certificates/Slice0/Obligations.lean ====
section
/-! DEFINITION. The statements for the provers. Each says in its title what it formalises; the rules it rests on and its reading in
words stand in OBLIGATIONS.json. A command "completes" where `exec` answers a next state. -/

section

open Sys2Proof Sys2Proof.Machine
open Sys2Proof.Config (Answer Params ParamSel Request Transaction)

/-! ### Encoding -/

/-- Decoding the word of any well-formed command gives that command back. (R91, R93, R94, R95) -/
def Obligations.DecodeInvertsEncode : Prop :=
  ∀ i : Instr, i.wellFormed = true → decode (encode i) = .ok i

/-- Every word that decodes is the word of the command it decodes to. (R91, R95, R96) -/
def Obligations.EncodeInvertsDecode : Prop :=
  ∀ (w : Word) (i : Instr), decode w = .ok i → i.wellFormed = true ∧ encode i = w

/-- The nine worked examples of R100 have the words the spec gives them. (R100) -/
def Obligations.WorkedExamplesDecode : Prop :=
  ∀ p ∈ [(Instr.nop, (0x01000000 : Word)), (.ldi 1 59, 0x0220003B), (.bcdenc 2 1, 0x10440000), (.bcddec 3 2, 0x11680000),
      (.get 4 (Reg.index .timeYear), 0x04800016), (.put (Reg.index .timeYear) 4, 0x05800016), (.wday 5, 0x12A00000),
      (.i2crd 0x6F 0x00 7, 0x51DE0700), (.i2cwr 0x77 0xE0 1, 0x50EE01E0)],
    encode p.1 = p.2 ∧ decode p.2 = .ok p.1

/-- Exactly the words R96 names are illegal, and each completes with IllegalCommand, changing only ERR and ERRMASK. (R96) -/
def Obligations.IllegalWordsChangeOnlyErrors : Prop :=
  (∀ w : Word, illegalWord w ↔ ∀ i : Instr, decode w ≠ .ok i) ∧ illegalWord 0x00000000 ∧ illegalWord 0xFFFFFFFF ∧
    ∀ (s : State) (w : Word) (rest : List PortOp), s.port = .issue w :: rest → illegalWord w →
      ∃ t, step s = .next t ∧ CompletesOffBus .illegalCommand noReg (s.setPort rest) t

/-! ### The step -/

/-- A step whose next access is a command word runs the command the word decodes to. (R60, R80, R95) -/
def Obligations.StepRunsTheDecodedCommand : Prop :=
  (∀ (s : State) (w : Word) (rest : List PortOp) (i : Instr), s.port = .issue w :: rest → decode w = .ok i →
      step s = exec i (s.setPort rest)) ∧
    ∀ (s : State) (i : Instr), i.wellFormed = true → step (s.withFetchWord 32 (encode i).toNat) = exec i s

/-- No step stops: every access is taken and answered with a next state, and an idle block keeps all state. (R80, R270, R273,
R284) -/
def Obligations.EveryStepGoesOn : Prop :=
  (∀ s : State, ∃ t, step s = .next t) ∧ (∀ s : State, s.port = [] → step s = .next s) ∧
    ∀ (s t : State) (op : PortOp) (rest : List PortOp), s.port = op :: rest → step s = .next t → t.port = rest

/-- Every command completes with one code: ERR holds it, ERRMASK gains its bit and completion clears none. (R24, R25, R270,
R272) -/
def Obligations.CompletionRecordsTheCode : Prop :=
  ∀ (i : Instr) (s : State), (∀ rs, i ≠ .put 0x09 rs) → ∃ t, exec i s = .next t ∧ Recorded t.err s t

/-- HostRead answers the register, HostWrite does what PUT does without touching ERR. That a HostWrite to ERRMASK clears bits
of it is DEDUCED from R25 (log entry 8) (R25, R43, R44) -/
def Obligations.HostPortReadsAndWrites : Prop :=
  (∀ (s : State) (idx : BitVec 8) (rest : List PortOp), s.port = .read idx :: rest →
      ∃ v, step s = .next ((s.setPort rest).setHostData v) ∧ (∀ r : Reg, r.index = idx → v = readReg s r) ∧
        (¬ assignedIndex idx → v = 0)) ∧
    (∀ (s : State) (idx : BitVec 8) (v : Word) (rest : List PortOp), s.port = .write idx v :: rest →
      readOnlyIndex idx ∨ ¬ assignedIndex idx → step s = .next (s.setPort rest)) ∧
    ∀ (s : State) (idx : BitVec 8) (v : Word) (rest : List PortOp), s.port = .write idx v :: rest →
      assignedIndex idx → ¬ readOnlyIndex idx →
      ∃ t, step s = .next t ∧ t.err = s.err ∧
        ∀ rs : GReg, exec (.put idx rs) ((s.setPort rest).setG rs v) = .next { t.setG rs v with err := .ok }

/-- The reset input sets every register to its reset value and touches neither the bus nor the parameters. (R300) -/
def Obligations.ResetSetsEveryRegister : Prop :=
  (∀ (s : State) (rest : List PortOp), s.port = .reset :: rest →
      ∃ t, step s = .next t ∧ (∀ r : Reg, readReg t r = resetValue r.index) ∧ t.errmask = 0 ∧ t.bus = s.bus ∧
        SameOutside (s.setPort rest) t) ∧
    (∀ r : Reg, readReg State.reset r = resetValue r.index) ∧ State.reset.errmask = 0 ∧
    ∀ (sel : ParamSel) (bus : Bus) (r : Reg), readReg (State.resetOn sel bus) r = resetValue r.index

/-- A harness access changes the bus alone: PRESENT, MAP, FAULT, or, by the model's choice (log entry 4), a Real bus's
answers. The answerNext clause is a DESIGN CHOICE (log entry 4): no rule names such an access, R62 only leaves the answers of
a Real bus free (R62, R70, R74) -/
def Obligations.HarnessChangesOnlyTheBus : Prop :=
  ∀ (s : State) (op : HarnessOp) (rest : List PortOp), s.port = .harness op :: rest →
    ∃ b, step s = .next ((s.setPort rest).setBus b) ∧ b.log = s.bus.log ∧
      match op with
      | .setPresent devices => b = { s.bus with present := devices }
      | .setFault on => b = { s.bus with fault := on }
      | .answerNext answers => b = { s.bus with kind := .real answers }
      | .seed addr reg value =>
        b = { s.bus with map := b.map } ∧
          (s.bus.map.wf → ∀ a r, (s.setBus b).deviceByte a r = if a = addr ∧ r = reg then value else s.deviceByte a r)

/-- ERR, RTC_STATE, RTC_DEV, SNS_STATE and SNS_DEV read the numbers the spec gives, FLAGS its seven bits. (R24, R25, R26,
R27, R28, R29, R270) -/
def Obligations.StatusRegistersReadTheirEncodings : Prop :=
  ∀ s : State,
    readReg s .err = (match s.err with
      | .ok => 0 | .busError => 1 | .identityMismatch => 2 | .calibrationInvalid => 3 | .notResponding => 4
      | .argRange => 5 | .illegalCommand => 6 | .sequence => 7 | .compError => 8) ∧
    readReg s .rtcState = (match s.rtcState with | .unchecked => 0 | .valid => 1 | .invalid => 2 | .justSet => 3) ∧
    (∀ r d, (r = Reg.rtcDev ∧ d = s.rtcDev ∨ r = Reg.snsDev ∧ d = s.snsDev) → readReg s r = (match d with
      | .uninitialized => 0 | .ready => 1 | .notResponding => 2 | .identityMismatch => 3 | .calibrationInvalid => 4)) ∧
    readReg s .snsState = (match s.snsState with
      | .powerOn => 0 | .identityChecked => 1 | .reset => 2 | .configured => 3 | .ready => 4 | .halted => 5) ∧
    (∀ k < 32, (readReg s .flags).getLsbD k = [s.flags.calValid, s.flags.rawValid, s.flags.tDone, s.flags.pDone,
      s.flags.hDone, s.flags.gDone, s.flags.aqDone].getD k false) ∧
    ∀ k < 32, (readReg s .errmask).getLsbD k = (decide (1 ≤ k ∧ k ≤ 15) && s.errmask.getLsbD k)

/-! ### Block registers -/

/-- NOP completes OK and changes nothing but ERR; its only word is 0x01000000. (R111) -/
def Obligations.NopSetsErrToOk : Prop :=
  (∀ s : State, ∃ t, exec .nop s = .next t ∧ CompletesOffBus .ok noReg s t) ∧
    (∀ w : Word, decode w = .ok .nop ↔ w = 0x01000000) ∧
    ∀ w : Word, w.extractLsb' 24 8 = 0x01 → w ≠ 0x01000000 → illegalWord w

/-- LDI loads a zero-extended immediate, LUI replaces the upper half and keeps the lower. (R112, R113) -/
def Obligations.ImmediatesLoadHalves : Prop :=
  ∀ (rd : GReg) (imm : BitVec 16) (s : State),
    (∃ t, exec (.ldi rd imm) s = .next t ∧ CompletesOffBus .ok (· = .g rd) s t ∧ (readReg t (.g rd)).toNat = imm.toNat) ∧
    ∃ t, exec (.lui rd imm) s = .next t ∧ CompletesOffBus .ok (· = .g rd) s t ∧
      (readReg t (.g rd)).toNat = imm.toNat * 65536 + (readReg s (.g rd)).toNat % 65536

/-- GET copies the register at any assigned index and refuses an unassigned one with ArgRange. (R21, R43, R115) -/
def Obligations.GetCopiesAnyRegister : Prop :=
  (∀ idx : BitVec 8, assignedIndex idx ↔ ∃ r : Reg, r.index = idx) ∧
    (∀ (rd : GReg) (r : Reg) (s : State),
      ∃ t, exec (.get rd r.index) s = .next t ∧ CompletesOffBus .ok (· = .g rd) s t ∧ readReg t (.g rd) = readReg s r) ∧
    ∀ (rd : GReg) (idx : BitVec 8) (s : State), ¬ assignedIndex idx →
      ∃ t, exec (.get rd idx) s = .next t ∧ CompletesOffBus .argRange noReg s t

/-- PUT to a register without side effect stores the legal part of Gs there and writes nothing else. (R21, R22, R33, R37,
R38, R39, R42, R120, R121) -/
def Obligations.PutStoresTheLegalBits : Prop :=
  ∀ (rs : GReg) (s : State),
    (∀ r : Reg, plainIndex r.index →
      ∃ t, exec (.put r.index rs) s = .next t ∧ CompletesOffBus .ok (· = r) s t ∧
        readReg t r = readReg s (.g rs) &&& storedMask r.index) ∧
    ∃ t, exec (.put 0x41 rs) s = .next t ∧ CompletesOffBus .ok (· = .cfgMaxRetry) s t ∧
      (readReg s (.g rs) &&& 0xFF ≠ 0 → readReg t .cfgMaxRetry = readReg s (.g rs) &&& 0xFF) ∧
      (readReg s (.g rs) &&& 0xFF = 0 → readReg t .cfgMaxRetry = 1)

/-- PUT to RAW_* or CALBUF clears FLAGS bits 2..6, PUT to CFG_AQB* or CFG_AQN clears AQ_DONE alone. (R31, R34, R40, R41,
R120, R121) -/
def Obligations.PutMakesResultsStale : Prop :=
  ∀ (r : Reg) (rs : GReg) (s : State),
    (stalingIndex r.index →
      ∃ t, exec (.put r.index rs) s = .next t ∧ CompletesOffBus .ok (fun x => x = r ∨ x = .flags) s t ∧
        readReg t r = readReg s (.g rs) &&& storedMask r.index ∧ readReg t .flags = readReg s .flags &&& 0x03) ∧
    (bucketIndex r.index →
      ∃ t, exec (.put r.index rs) s = .next t ∧ CompletesOffBus .ok (fun x => x = r ∨ x = .flags) s t ∧
        readReg t r = readReg s (.g rs) &&& storedMask r.index ∧ readReg t .flags = readReg s .flags &&& 0x3F)

/-- PUT to FLAGS takes bits 0 and 1 of Gs and clears the rest; PUT to ERRMASK clears the bits written as 1. (R25, R30, R120,
R121) -/
def Obligations.PutFlagsAndErrmask : Prop :=
  ∀ (rs : GReg) (s : State),
    (∃ t, exec (.put 0x0E rs) s = .next t ∧ CompletesOffBus .ok (· = .flags) s t ∧
      readReg t .flags = readReg s (.g rs) &&& 0x03) ∧
    ∃ t, exec (.put 0x09 rs) s = .next t ∧ t.err = .ok ∧
      (∀ k < 16, t.errmask.getLsbD k = (s.errmask.getLsbD k && !(readReg s (.g rs)).getLsbD k)) ∧
      SameBut (fun r => r = .err ∨ r = .errmask) s t ∧ SameOutside s t ∧ t.bus = s.bus

/-- PUT to a read-only or unassigned index completes with ArgRange and writes nothing. (R97, R120) -/
def Obligations.PutRefusesReadOnlyAndUnassigned : Prop :=
  ∀ (idx : BitVec 8) (rs : GReg) (s : State), readOnlyIndex idx ∨ ¬ assignedIndex idx →
    ∃ t, exec (.put idx rs) s = .next t ∧ CompletesOffBus .argRange noReg s t

/-- LI, MOV, CLR, CLRERR and SETF, expanded as R99 says, load, copy, clear and write as their names say. (R99) -/
def Obligations.PseudoCommandsDoWhatTheyName : Prop :=
  (∀ (rd : GReg) (v : Word) (s : State),
      ∃ t, runCommands (Pseudo.li rd v).expand s = .next t ∧ CompletesOffBus .ok (· = .g rd) s t ∧ readReg t (.g rd) = v) ∧
    (∀ (rd rs : GReg) (s : State),
      ∃ t, runCommands (Pseudo.mov rd rs).expand s = .next t ∧ CompletesOffBus .ok (· = .g rd) s t ∧
        readReg t (.g rd) = readReg s (.g rs)) ∧
    (∀ (rd : GReg) (s : State),
      ∃ t, runCommands (Pseudo.clr rd).expand s = .next t ∧ CompletesOffBus .ok (· = .g rd) s t ∧ readReg t (.g rd) = 0) ∧
    (∀ (rt : GReg) (s : State),
      ∃ t, runCommands (Pseudo.clrErr rt).expand s = .next t ∧ t.err = .ok ∧ t.errmask = 0 ∧ readReg t (.g rt) = 0xFFFF ∧
        SameBut (fun r => r = .err ∨ r = .errmask ∨ r = .g rt) s t ∧ SameOutside s t ∧ t.bus = s.bus) ∧
    ∀ (r : Reg) (imm : BitVec 16) (rt : GReg) (s : State), plainIndex r.index →
      ∃ t, runCommands (Pseudo.setf r.index imm rt).expand s = .next t ∧
        CompletesOffBus .ok (fun x => x = r ∨ x = .g rt) s t ∧
        readReg t r = imm.zeroExtend 32 &&& storedMask r.index ∧ (r ≠ .g rt → readReg t (.g rt) = imm.zeroExtend 32)

/-! ### BCD unit -/

/-- BCDENC encodes 0..99 and BCDDEC decodes any byte; larger values complete with ArgRange. (R151, R152, R161, R162) -/
def Obligations.BcdencAndBcddec : Prop :=
  ∀ (rd rs : GReg) (s : State),
    ((readReg s (.g rs)).toNat ≤ 99 →
      ∃ t, exec (.bcdenc rd rs) s = .next t ∧ CompletesOffBus .ok (· = .g rd) s t ∧
        (readReg t (.g rd)).toNat = (readReg s (.g rs)).toNat / 10 * 16 + (readReg s (.g rs)).toNat % 10) ∧
    (99 < (readReg s (.g rs)).toNat →
      ∃ t, exec (.bcdenc rd rs) s = .next t ∧ CompletesOffBus .argRange noReg s t) ∧
    ((readReg s (.g rs)).toNat ≤ 0xFF →
      ∃ t, exec (.bcddec rd rs) s = .next t ∧ CompletesOffBus .ok (· = .g rd) s t ∧
        (readReg t (.g rd)).toNat = (readReg s (.g rs)).toNat / 16 * 10 + (readReg s (.g rs)).toNat % 16) ∧
    (0xFF < (readReg s (.g rs)).toNat →
      ∃ t, exec (.bcddec rd rs) s = .next t ∧ CompletesOffBus .argRange noReg s t)

/-- BCDENC then BCDDEC restores every value 0..99, BCDDEC then BCDENC exactly the well-formed BCD bytes. (R150, R153) -/
def Obligations.BcdRoundTrips : Prop :=
  ∀ (rs rx rd : GReg) (s : State),
    ((readReg s (.g rs)).toNat ≤ 99 →
      ∃ t, runCommands [.bcdenc rx rs, .bcddec rd rx] s = .next t ∧ t.err = .ok ∧
        readReg t (.g rd) = readReg s (.g rs)) ∧
    ((readReg s (.g rs)).toNat ≤ 0xFF → (readReg s (.g rs)).toNat / 16 * 10 + (readReg s (.g rs)).toNat % 16 ≤ 99 →
      ∃ t, runCommands [.bcddec rx rs, .bcdenc rd rx] s = .next t ∧ t.err = .ok ∧
        (readReg t (.g rd) = readReg s (.g rs) ↔
          (readReg s (.g rs)).toNat / 16 ≤ 9 ∧ (readReg s (.g rs)).toNat % 16 ≤ 9))

/-- WDAY gives the weekday of the staged date by the Gregorian calendar counted day by day from 2000-01-01. (R157, R158,
R159, R163) -/
def Obligations.WdayIsTheCalendarWeekday : Prop :=
  ∀ (rd : GReg) (s : State),
    (dateFits s.time →
      ∃ t, exec (.wday rd) s = .next t ∧ CompletesOffBus .ok (· = .g rd) s t ∧
        (readReg t (.g rd)).toNat = (5 + dayNumber s.time.year.toNat s.time.month.toNat s.time.day.toNat) % 7) ∧
    (¬ dateFits s.time → ∃ t, exec (.wday rd) s = .next t ∧ CompletesOffBus .argRange noReg s t)

/-- TVALID writes 1 exactly where the staged time is valid at the epoch floor, else 0. (R37, R160, R164) -/
def Obligations.TvalidIsTheValidityPredicate : Prop :=
  ∀ (rd : GReg) (s : State),
    ∃ t, exec (.tvalid rd) s = .next t ∧ CompletesOffBus .ok (· = .g rd) s t ∧
      (validTime s.time s.cfg.epoch → readReg t (.g rd) = 1) ∧ (¬ validTime s.time s.cfg.epoch → readReg t (.g rd) = 0)

/-- TPACK writes the seven BCD bytes of an in-range staged time into BUF[0..6]; TUNPACK decodes BUF[0..6] into the staged
time. (R152, R155, R156, R157, R165, R167) -/
def Obligations.TpackAndTunpackConvertTheBlock : Prop :=
  ∀ s : State,
    (dateFits s.time ∧ clockFits s.time ∧ s.time.weekday.toNat ≤ 6 →
      ∃ t, exec .tpack s = .next t ∧ CompletesOffBus .ok (bufRange 0 7) s t ∧
        ∀ i : Fin 7, readReg t (.buf ⟨i, by omega⟩) = (bcdByte ((timeFields s.time).getD i 0)).zeroExtend 32) ∧
    (¬ (dateFits s.time ∧ clockFits s.time ∧ s.time.weekday.toNat ≤ 6) →
      ∃ t, exec .tpack s = .next t ∧ CompletesOffBus .argRange noReg s t) ∧
    ∃ t, exec .tunpack s = .next t ∧ CompletesOffBus .ok timeReg s t ∧ decodesTo (fun i => s.buf[i]) t.time

/-- TUNPACK after TPACK restores every in-range staged time. (R153, R165, R167) -/
def Obligations.TunpackAfterTpackRestoresTime : Prop :=
  ∀ s : State, dateFits s.time → clockFits s.time → s.time.weekday.toNat ≤ 6 →
    ∃ t, runCommands [.tpack, .tunpack] s = .next t ∧ t.time = s.time ∧ CompletesOffBus .ok (bufRange 0 7) s t

/-! ### RTC sequencer -/

/-- RTCRD decodes an accepted answer into TIME and judges it; on a NAK or short read it only marks the RTC. (R64, R152, R156,
R170, R175, R176) -/
def Obligations.RtcrdReadsTheClock : Prop :=
  ∀ s : State,
    let q := Request.read s.params.rtcAddr s.params.rtcTimeBase 7
    (∀ c : Fin 7 → Byte, s.bus.answer q = .ack (List.ofFn c) →
      ∃ t, exec .rtcrd s = .next t ∧
        Completes .ok (fun r => timeReg r ∨ bufRange 0 7 r ∨ r = .rtcState ∨ r = .rtcDev) s t ∧ t.bus = s.bus.after q ∧
        (∀ i : Fin 7, readReg t (.buf ⟨i, by omega⟩) = (c i).zeroExtend 32) ∧
        decodesTo (fun i => c i &&& s.params.rtcDataMask[i]) t.time ∧ t.rtcDev = .ready ∧
        (validTime t.time s.cfg.epoch → t.rtcState = .valid) ∧ (¬ validTime t.time s.cfg.epoch → t.rtcState = .invalid)) ∧
    ((∀ c : Fin 7 → Byte, s.bus.answer q ≠ .ack (List.ofFn c)) →
      ∃ t, exec .rtcrd s = .next t ∧ Completes .busError (fun r => r = .rtcState ∨ r = .rtcDev) s t ∧
        t.bus = s.bus.after q ∧ t.rtcState = .unchecked ∧ t.rtcDev = .notResponding)

/-- RTCSET is accepted only in Invalid or JustSet; in Unchecked or Valid it raises Sequence and changes nothing. (R180) -/
def Obligations.RtcsetIsGuarded : Prop :=
  ∀ s : State,
    (s.rtcState = .unchecked ∨ s.rtcState = .valid →
      ∃ t, exec .rtcset s = .next t ∧ CompletesOffBus .sequence noReg s t) ∧
    (s.rtcState = .invalid ∨ s.rtcState = .justSet → ∃ t, exec .rtcset s = .next t ∧ t.err ≠ .sequence)

/-- RTCSET checks the candidate, writes it with its computed weekday, re-reads it, and reports what the bus answered. (R158,
R170, R181, R182, R273, R275) -/
def Obligations.RtcsetWritesAndConfirms : Prop :=
  ∀ s : State, s.rtcState = .invalid ∨ s.rtcState = .justSet →
    let w := Request.write s.params.rtcAddr s.params.rtcTimeBase s.rtcBlockBytes
    let q := Request.read s.params.rtcAddr s.params.rtcTimeBase 7
    let fits := dateFits s.time ∧ clockFits s.time
    let written : Reg → Prop := fun r => r = .timeWday ∨ bufRange 0 7 r ∨ r = .rtcState ∨ r = .rtcDev
    let staged : State → Prop := fun t =>
      (readReg t .timeWday).toNat = s.time.calendarWeekday ∧
        ∀ i : Fin 7, readReg t (.buf ⟨i, by omega⟩) = (s.rtcBlock i).zeroExtend 32
    (¬ fits → ∃ t, exec .rtcset s = .next t ∧ CompletesOffBus .argRange noReg s t) ∧
    (fits → s.bus.answer w = .nak →
      ∃ t, exec .rtcset s = .next t ∧ Completes .busError written s t ∧ t.bus = s.bus.after w ∧ staged t ∧
        t.rtcState = .unchecked ∧ t.rtcDev = .notResponding) ∧
    (fits → s.bus.answer w ≠ .nak → (∀ c : Fin 7 → Byte, (s.bus.after w).answer q ≠ .ack (List.ofFn c)) →
      ∃ t, exec .rtcset s = .next t ∧ Completes .busError written s t ∧ t.bus = (s.bus.after w).after q ∧ staged t ∧
        t.rtcState = .unchecked ∧ t.rtcDev = .notResponding) ∧
    ∀ c : Fin 7 → Byte, fits → s.bus.answer w ≠ .nak → (s.bus.after w).answer q = .ack (List.ofFn c) →
      ∃ t, exec .rtcset s = .next t ∧ t.bus = (s.bus.after w).after q ∧ staged t ∧
        (∀ i : Fin 7, readReg t (.buf ⟨8 + i, by omega⟩) = (c i).zeroExtend 32) ∧
        ((∀ i : Fin 7, c i &&& s.params.rtcDataMask[i] = s.rtcBlock i &&& s.params.rtcDataMask[i]) →
          Completes .ok (fun r => written r ∨ bufRange 8 15 r) s t ∧ t.rtcState = .justSet ∧ t.rtcDev = .ready) ∧
        ((∃ i : Fin 7, c i &&& s.params.rtcDataMask[i] ≠ s.rtcBlock i &&& s.params.rtcDataMask[i]) →
          Completes .calibrationInvalid (fun r => written r ∨ bufRange 8 15 r) s t ∧ t.rtcState = .invalid ∧
            t.rtcDev = .calibrationInvalid)

/-- On a Simulated bus with the RTC present RTCSET always succeeds and changes seven bytes of MAP and no other. (R71, R72,
R73, R75, R181, R183) -/
def Obligations.RtcsetSetsASimulatedRtc : Prop :=
  ∀ s : State, s.rtcSettable → s.simPresent s.params.rtcAddr → s.bus.map.wf →
    ∃ t, exec .rtcset s = .next t ∧
      Completes .ok (fun r => r = .timeWday ∨ bufRange 0 7 r ∨ bufRange 8 15 r ∨ r = .rtcState ∨ r = .rtcDev) s t ∧
      t.rtcState = .justSet ∧ t.rtcDev = .ready ∧ (readReg t .timeWday).toNat = s.time.calendarWeekday ∧
      (∀ i : Fin 7, t.deviceByte s.params.rtcAddr (s.params.rtcTimeBase + BitVec.ofNat 8 i) = s.rtcBlock i ∧
        readReg t (.buf ⟨i, by omega⟩) = (s.rtcBlock i).zeroExtend 32 ∧
        readReg t (.buf ⟨8 + i, by omega⟩) = (s.rtcBlock i).zeroExtend 32) ∧
      ∀ a r, (a = s.params.rtcAddr → r.toNat < s.params.rtcTimeBase.toNat ∨ s.params.rtcTimeBase.toNat + 7 ≤ r.toNat) →
        t.deviceByte a r = s.deviceByte a r

/-- A second RTCSET of the same candidate on a Simulated bus changes nothing but the record of transactions. (R184) -/
def Obligations.RtcsetTwiceIsRtcsetOnce : Prop :=
  ∀ s t : State, s.bus.kind = .simulated → s.bus.map.wf → exec .rtcset s = .next t → t.err = .ok →
    ∃ u, exec .rtcset t = .next u ∧ u = t.setBus { t.bus with log := u.bus.log } ∧
      u.bus.log.length = t.bus.log.length + 2

/-- Every command moves RTC_STATE and RTC_DEV as the transition table of R186 says. (R152, R156, R160, R170, R175, R176,
R180, R186) -/
def Obligations.RtcMachineFollowsItsTable : Prop :=
  ∀ (i : Instr) (s : State),
    ∃ t, exec i s = .next t ∧ RtcMove s.rtcState s.rtcDev i t.err (validTime t.time s.cfg.epoch) t.rtcState t.rtcDev ∧
      (i = .rtcrd → t.err = .ok → decodesTo (fun k => t.buf[k] &&& s.params.rtcDataMask[k]) t.time)

/-! ### Bus transport -/

/-- I2CWR and I2CRD refuse a bad length or offset with ArgRange before any transaction, and accept every address. (R131) -/
def Obligations.BusCommandsCheckTheirOperands : Prop :=
  ∀ (addr : DevAddr) (reg : RegOffset) (len : Nat) (s : State),
    (len = 0 ∨ 32 < len ∨ 256 < reg.toNat + len →
      (∃ t, exec (.i2cwr addr reg len) s = .next t ∧ CompletesOffBus .argRange noReg s t) ∧
      ∃ t, exec (.i2crd addr reg len) s = .next t ∧ CompletesOffBus .argRange noReg s t) ∧
    (¬ (len = 0 ∨ 32 < len ∨ 256 < reg.toNat + len) →
      (∃ t bs x, exec (.i2cwr addr reg len) s = .next t ∧ t.err ≠ .argRange ∧ bs.length = len ∧
        t.bus.log = ⟨.write addr reg bs, x⟩ :: s.bus.log) ∧
      ∃ t x, exec (.i2crd addr reg len) s = .next t ∧ t.err ≠ .argRange ∧
        t.bus.log = ⟨.read addr reg len, x⟩ :: s.bus.log)

/-- I2CWR sends BUF[0..len-1]; I2CRD fills it with an accepted answer; a NAK or short read is BusError and changes no
register. (R63, R64, R130, R132, R133, R135, R136) -/
def Obligations.BusCommandsMoveTheBuffer : Prop :=
  ∀ (addr : DevAddr) (reg : RegOffset) (len : Nat) (s : State), 1 ≤ len → len ≤ 32 → reg.toNat + len ≤ 256 →
    let w := Request.write addr reg (s.buf.toList.take len)
    let q := Request.read addr reg len
    (s.bus.answer w ≠ .nak →
      ∃ t, exec (.i2cwr addr reg len) s = .next t ∧ Completes .ok noReg s t ∧ t.bus = s.bus.after w) ∧
    (s.bus.answer w = .nak →
      ∃ t, exec (.i2cwr addr reg len) s = .next t ∧ Completes .busError noReg s t ∧ t.bus = s.bus.after w) ∧
    (∀ bs, s.bus.answer q = .ack bs → bs.length = len →
      ∃ t, exec (.i2crd addr reg len) s = .next t ∧ Completes .ok (bufRange 0 len) s t ∧ t.bus = s.bus.after q ∧
        ∀ i : Fin 32, i.val < len → readReg t (.buf i) = (bs.getD i 0).zeroExtend 32) ∧
    ((∀ bs, s.bus.answer q = .ack bs → bs.length ≠ len) →
      ∃ t, exec (.i2crd addr reg len) s = .next t ∧ Completes .busError noReg s t ∧ t.bus = s.bus.after q)

/-- On a Simulated bus I2CWR stores its bytes and no other, I2CRD returns the stored ones, and both see NAK as R71 says.
(R71, R72, R132, R133, R135, R136) -/
def Obligations.SimulatedBusStoresAndReturnsBytes : Prop :=
  ∀ (addr : DevAddr) (reg : RegOffset) (len : Nat) (s : State), 1 ≤ len → len ≤ 32 → reg.toNat + len ≤ 256 →
    s.bus.map.wf →
    (s.simPresent addr →
      (∃ t, exec (.i2cwr addr reg len) s = .next t ∧ Completes .ok noReg s t ∧
        (∀ i : Fin 32, i.val < len → t.deviceByte addr (reg + BitVec.ofNat 8 i) = s.buf[i]) ∧
        ∀ a r, (a = addr → r.toNat < reg.toNat ∨ reg.toNat + len ≤ r.toNat) → t.deviceByte a r = s.deviceByte a r) ∧
      ∃ t, exec (.i2crd addr reg len) s = .next t ∧ Completes .ok (bufRange 0 len) s t ∧ t.bus.map = s.bus.map ∧
        ∀ i : Fin 32, i.val < len →
          readReg t (.buf i) = (s.deviceByte addr (reg + BitVec.ofNat 8 i)).zeroExtend 32) ∧
    (s.bus.kind = .simulated → (addr ∉ s.bus.present ∨ s.bus.fault = true) →
      (∃ t, exec (.i2cwr addr reg len) s = .next t ∧ Completes .busError noReg s t ∧ t.bus.map = s.bus.map) ∧
      ∃ t, exec (.i2crd addr reg len) s = .next t ∧ Completes .busError noReg s t ∧ t.bus.map = s.bus.map)

/-- While FAULT is true on a Simulated bus, no command changes MAP and none that uses the bus completes OK. (R71, R72, R74,
R270, R275) -/
def Obligations.FaultMakesEveryTransactionFail : Prop :=
  ∀ (i : Instr) (s : State), s.bus.kind = .simulated → s.bus.fault = true →
    ∃ t, exec i s = .next t ∧
      (t.bus = s.bus ∨ ∃ q, t.bus = { s.bus with log := ⟨q, .nak⟩ :: s.bus.log } ∧ t.err = .busError)

/-- No command makes more bus transactions than R321 allows, and each is of 1..64 bytes inside registers 0..255. (R65, R66,
R214, R321) -/
def Obligations.TransactionsAreBoundedAndLegal : Prop :=
  ∀ (i : Instr) (s : State),
    ∃ t made, exec i s = .next t ∧ t.bus.log = made ++ s.bus.log ∧ made.length ≤ maxTransactions i s ∧
      maxTransactions i s ≤ 260 ∧ (i = .snscfg → maxTransactions i s ≤ 16) ∧ ∀ x ∈ made, requestLegal x.request

/-! ### Sensor sequencer -/

/-- SNSID restarts the sensor machine by the identity byte: IdentityChecked, or Halted with the reason. (R190, R191, R195,
R196) -/
def Obligations.SnsidVerifiesTheIdentity : Prop :=
  ∀ s : State,
    let q := Request.read s.params.snsAddr s.params.chipIdReg 1
    (s.bus.answer q = .ack [s.params.chipIdValue] →
      ∃ t, exec .snsid s = .next t ∧ Completes .ok (fun r => r = .buf 0 ∨ r = .snsState ∨ r = .snsDev) s t ∧
        t.bus = s.bus.after q ∧ t.buf[0] = s.params.chipIdValue ∧ t.snsState = .identityChecked ∧
        t.snsDev = .uninitialized) ∧
    (∀ b, s.bus.answer q = .ack [b] → b ≠ s.params.chipIdValue →
      ∃ t, exec .snsid s = .next t ∧
        Completes .identityMismatch (fun r => r = .buf 0 ∨ r = .snsState ∨ r = .snsDev) s t ∧
        t.bus = s.bus.after q ∧ t.buf[0] = b ∧ t.snsState = .halted ∧ t.snsDev = .identityMismatch) ∧
    ((∀ b, s.bus.answer q ≠ .ack [b]) →
      ∃ t, exec .snsid s = .next t ∧ Completes .busError (fun r => r = .snsState ∨ r = .snsDev) s t ∧
        t.bus = s.bus.after q ∧ t.snsState = .halted ∧ t.snsDev = .notResponding)

/-- SNSRST clears FLAGS and writes the reset command: Reset where it is acknowledged, else Halted. That the flags are cleared
before the write, and not on Sequence, is R198; R31 says "completion of SNSRST" (log entry 9) (R31, R190, R191, R198, R199)
-/
def Obligations.SnsrstResetsTheSensor : Prop :=
  ∀ s : State, s.snsState = .identityChecked →
    let q := Request.write s.params.snsAddr s.params.softResetReg [s.params.softResetCmd]
    (s.bus.answer q ≠ .nak →
      ∃ t, exec .snsrst s = .next t ∧ Completes .ok (fun r => r = .flags ∨ r = .snsState) s t ∧ t.bus = s.bus.after q ∧
        readReg t .flags = 0 ∧ t.snsState = .reset) ∧
    (s.bus.answer q = .nak →
      ∃ t, exec .snsrst s = .next t ∧ Completes .busError (fun r => r = .flags ∨ r = .snsState ∨ r = .snsDev) s t ∧
        t.bus = s.bus.after q ∧ readReg t .flags = 0 ∧ t.snsState = .halted ∧ t.snsDev = .notResponding)

/-- SNSCFG makes the writes of CFG_WRITES in list order up to the first NAK. (R80, R190, R191, R192, R201, R205) -/
def Obligations.SnscfgWritesTheConfiguration : Prop :=
  ∀ s : State, s.snsState = .reset →
    let l := s.params.cfgWrites s.cfg.sensor
    ∃ t made, exec .snscfg s = .next t ∧ t.bus.log = made.reverse ++ s.bus.log ∧ t.bus = s.bus.afterAll made ∧
      WritesInOrder s.params.snsAddr l made ∧
      ((made.length = l.length ∧ (∀ x ∈ made, x.answer ≠ .nak) ∧ Completes .ok (· = .snsState) s t ∧
          t.snsState = .configured) ∨
        (1 ≤ made.length ∧ made.length ≤ l.length ∧ (∃ x ∈ made, x.answer = .nak) ∧
          Completes .busError (fun r => r = .snsState ∨ r = .snsDev) s t ∧ t.snsState = .halted ∧
          t.snsDev = .notResponding))

/-- On a Simulated bus SNSCFG leaves each written register with its last byte and every other device byte as it was. (R71,
R201, R205) -/
def Obligations.SnscfgConfiguresASimulatedSensor : Prop :=
  ∀ s : State, s.snsState = .reset → s.simPresent s.params.snsAddr → s.bus.map.wf →
    let l := s.params.cfgWrites s.cfg.sensor
    ∃ t, exec .snscfg s = .next t ∧ Completes .ok (· = .snsState) s t ∧ t.snsState = .configured ∧
      (∀ before after r v, l = before ++ (r, v) :: after → (∀ w ∈ after, w.1 ≠ r) →
        t.deviceByte s.params.snsAddr r = v) ∧
      ∀ a r, (a = s.params.snsAddr → ∀ w ∈ l, w.1 ≠ r) → t.deviceByte a r = s.deviceByte a r

/-- SNSCAL takes a whole coefficient block into CALBUF, or keeps nothing of it and clears CAL_VALID. (R31, R41, R190, R191,
R208, R209) -/
def Obligations.SnscalLoadsTheCoefficients : Prop :=
  ∀ s : State, s.snsState = .configured →
    let q := Request.read s.params.snsAddr s.params.calBase s.params.calLen
    (∀ bs, s.bus.answer q = .ack bs → bs.length = s.params.calLen →
      ∃ t, exec .snscal s = .next t ∧
        Completes .ok (fun r => calRange s.params.calLen r ∨ r = .flags ∨ r = .snsState ∨ r = .snsDev) s t ∧
        t.bus = s.bus.after q ∧ (∀ i : Fin 64, i.val < s.params.calLen → t.calbuf[i] = bs.getD i 0) ∧
        readReg t .flags = (readReg s .flags &&& 0x02) ||| 0x01 ∧ t.snsState = .ready ∧ t.snsDev = .ready) ∧
    (s.bus.answer q = .nak →
      ∃ t, exec .snscal s = .next t ∧ Completes .busError (fun r => r = .flags ∨ r = .snsState ∨ r = .snsDev) s t ∧
        t.bus = s.bus.after q ∧ readReg t .flags = readReg s .flags &&& 0x7E ∧ t.snsState = .halted ∧
        t.snsDev = .notResponding) ∧
    (∀ bs, s.bus.answer q = .ack bs → bs.length ≠ s.params.calLen →
      ∃ t, exec .snscal s = .next t ∧
        Completes .calibrationInvalid (fun r => r = .flags ∨ r = .snsState ∨ r = .snsDev) s t ∧
        t.bus = s.bus.after q ∧ readReg t .flags = readReg s .flags &&& 0x7E ∧ t.snsState = .halted ∧
        t.snsDev = .calibrationInvalid)

/-- SNSACQ in Ready triggers, polls at most CFG_MAXRETRY times and samples; it takes the sample whole or halts the sensor.
(R31, R32, R80, R190, R191, R213, R214, R215, R216) -/
def Obligations.SnsacqCompletesWithinItsBound : Prop :=
  ∀ s : State, s.snsState = .ready →
    let l := s.params.triggerWrites s.cfg.sensor
    let poll := Request.read s.params.snsAddr s.params.statusReg 1
    let sample := Request.read s.params.snsAddr s.params.rawBase s.params.rawLen
    let isReady : Transaction → Bool → Prop := fun x yes =>
      ∃ b : Byte, x.answer = .ack [b] ∧ (b &&& s.params.readyMask = s.params.readyMask ↔ yes = true)
    ∃ (t : State) (triggers polls last : List Transaction), exec .snsacq s = .next t ∧
      t.bus.log = (triggers ++ polls ++ last).reverse ++ s.bus.log ∧ t.bus = s.bus.afterAll (triggers ++ polls ++ last) ∧
      WritesInOrder s.params.snsAddr l triggers ∧
      (∀ x ∈ polls, x.request = poll) ∧ (∀ x ∈ polls.dropLast, isReady x false) ∧
      t.lastPolls.toNat = polls.length ∧ polls.length ≤ s.cfg.maxRetry.toNat ∧
      (polls ++ last ≠ [] → triggers.length = l.length ∧ ∀ x ∈ triggers, x.answer ≠ .nak) ∧
      (last ≠ [] → ∃ x, polls.getLast? = some x ∧ isReady x true) ∧
      ((∃ bs, bs.length = s.params.rawLen ∧ last = [⟨sample, .ack bs⟩] ∧
          Completes .ok (fun r => rawReg r ∨ bufRange 0 s.params.rawLen r ∨ r = .flags ∨ r = .lastPolls) s t ∧
          readReg t .flags = (readReg s .flags &&& 0x01) ||| 0x02 ∧
          (∀ i : Fin 32, i.val < s.params.rawLen → t.buf[i] = bs.getD i 0) ∧ holdsSample (s.params.rawExtract bs) t) ∨
        (readReg t .flags = readReg s .flags &&& 0x7D ∧ t.snsState = .halted ∧ t.snsDev = .notResponding ∧
          Completes t.err (fun r => r = .flags ∨ r = .lastPolls ∨ r = .snsState ∨ r = .snsDev) s t ∧
          ((t.err = .notResponding ∧ triggers.length = l.length ∧ (∀ x ∈ triggers, x.answer ≠ .nak) ∧
              polls.length = s.cfg.maxRetry.toNat ∧ (∀ x ∈ polls, isReady x false) ∧ last = []) ∨
            (t.err = .busError ∧ ((∃ x, triggers.getLast? = some x ∧ x.answer = .nak ∧ polls = [] ∧ last = []) ∨
              (∃ x, polls.getLast? = some x ∧ (∀ b : Byte, x.answer ≠ .ack [b]) ∧ last = []) ∨
              ∃ a, last = [⟨sample, a⟩] ∧ ∀ bs : List Byte, bs.length = s.params.rawLen → a ≠ .ack bs)))))

/-- On a Simulated sensor SNSACQ makes its trigger writes, then samples at the first poll if the status is ready, else times
out. (R71, R72, R73, R204, R213, R214, R215, R216) -/
def Obligations.SnsacqSamplesASimulatedSensor : Prop :=
  ∀ s : State, s.snsState = .ready → s.simPresent s.params.snsAddr → s.bus.map.wf → s.retryLegal →
    (∀ w ∈ s.params.triggerWrites s.cfg.sensor, w.1 ≠ s.params.statusReg ∧
      (w.1.toNat < s.params.rawBase.toNat ∨ s.params.rawBase.toNat + s.params.rawLen ≤ w.1.toNat)) →
    let status := s.deviceByte s.params.snsAddr s.params.statusReg
    let bytes := (List.range s.params.rawLen).map
      (fun i => s.deviceByte s.params.snsAddr (s.params.rawBase + BitVec.ofNat 8 i))
    let x := s.params.rawExtract bytes
    let l := s.params.triggerWrites s.cfg.sensor
    let triggered : State → Prop := fun t =>
      (∀ before after r v, l = before ++ (r, v) :: after → (∀ w ∈ after, w.1 ≠ r) →
        t.deviceByte s.params.snsAddr r = v) ∧
      ∀ a r, (a = s.params.snsAddr → ∀ w ∈ l, w.1 ≠ r) → t.deviceByte a r = s.deviceByte a r
    (status &&& s.params.readyMask = s.params.readyMask →
      ∃ t, exec .snsacq s = .next t ∧
        Completes .ok (fun r => rawReg r ∨ bufRange 0 s.params.rawLen r ∨ r = .flags ∨ r = .lastPolls) s t ∧
        readReg t .lastPolls = 1 ∧ readReg t .flags = (readReg s .flags &&& 0x01) ||| 0x02 ∧
        (∀ i : Fin 32, i.val < s.params.rawLen → t.buf[i] = bytes.getD i 0) ∧
        holdsSample x t ∧ triggered t) ∧
    (status &&& s.params.readyMask ≠ s.params.readyMask →
      ∃ t, exec .snsacq s = .next t ∧
        Completes .notResponding (fun r => r = .flags ∨ r = .lastPolls ∨ r = .snsState ∨ r = .snsDev) s t ∧
        readReg t .lastPolls = readReg s .cfgMaxRetry ∧ readReg t .flags = readReg s .flags &&& 0x7D ∧
        t.snsState = .halted ∧ t.snsDev = .notResponding ∧ triggered t)

/-- SNSRST, SNSCFG, SNSCAL and SNSACQ outside the state they require raise Sequence and touch nothing. That a refused command
keeps FLAGS and LAST_POLLS is R273, where R29, R31 and R32 can be read otherwise (log entries 9 and 22) (R190, R191, R273,
R275) -/
def Obligations.OutOfOrderSensorCommandsAreRefused : Prop :=
  ∀ (i : Instr) (need : SnsState) (s : State), snsRequired i = some need → s.snsState ≠ need →
    ∃ t, exec i s = .next t ∧ CompletesOffBus .sequence noReg s t

/-- After an identity mismatch on the Simulated bus every later sensor step raises Sequence without a transaction. That a
refused command keeps FLAGS and LAST_POLLS is R273, where R29, R31 and R32 can be read otherwise (log entries 9 and 22)
(R217, R273) -/
def Obligations.IdentityMismatchHaltsTheSensor : Prop :=
  ∀ s : State, s.simPresent s.params.snsAddr →
    s.deviceByte s.params.snsAddr s.params.chipIdReg ≠ s.params.chipIdValue →
    ∃ t, exec .snsid s = .next t ∧ t.snsState = .halted ∧ t.snsDev = .identityMismatch ∧
      ∀ i ∈ [Instr.snsrst, .snscfg, .snscal, .snsacq], ∃ u, exec i t = .next u ∧ CompletesOffBus .sequence noReg t u

/-- Every command moves SNS_STATE and SNS_DEV as the transition table of R190 says. (R190, R191) -/
def Obligations.SensorMachineFollowsItsTable : Prop :=
  ∀ (i : Instr) (s : State), s.snsCoherent →
    ∃ t, exec i s = .next t ∧ SnsMove s.snsState s.snsDev i t.err t.snsState t.snsDev

/-- A Halted sensor machine leaves that state only by SNSID or the reset input. (R190, R191) -/
def Obligations.OnlySnsidOrResetLeavesHalted : Prop :=
  ∀ s t : State, s.snsState = .halted → step s = .next t → t.snsState ≠ .halted →
    ∃ rest, s.port = .reset :: rest ∨ s.port = .issue 0x30000000 :: rest

/-! ### Compensation pipeline -/

/-- CMPT writes T_FINE, OUT_T and T_DONE from COMP_T, or refuses without touching them. (R231, R240, R241) -/
def Obligations.CmptWritesTheTemperature : Prop :=
  ∀ s : State,
    let coef := s.params.calDecode (s.calbuf.toList.take s.params.calLen)
    let ready := s.flags.calValid = true ∧ s.flags.rawValid = true
    (ready → ∃ t, exec .cmpt s = .next t ∧
      match s.params.compT coef s.raw.t with
      | some (tf, v) =>
        CompletesOffBus .ok (fun r => r = .tFine ∨ r = .outT ∨ r = .flags) s t ∧
          readReg t .tFine = BitVec.ofInt 32 tf ∧ readReg t .outT = BitVec.ofInt 32 v ∧
          readReg t .flags = readReg s .flags ||| 0x04
      | none => CompletesOffBus .compError noReg s t) ∧
    (¬ ready → ∃ t, exec .cmpt s = .next t ∧ CompletesOffBus .sequence noReg s t)

/-- CMPP and CMPH write OUT_P and OUT_H from the stored fine temperature, and refuse until CMPT has run. (R230, R231, R243,
R244, R246) -/
def Obligations.CmppAndCmphUseTheFineTemperature : Prop :=
  ∀ s : State,
    let coef := s.params.calDecode (s.calbuf.toList.take s.params.calLen)
    let ready := s.flags.calValid = true ∧ s.flags.rawValid = true ∧ s.flags.tDone = true
    (ready → ∃ t, exec .cmpp s = .next t ∧
      match s.params.compP coef s.tFine.toInt s.raw.p with
      | some v =>
        CompletesOffBus .ok (fun r => r = .outP ∨ r = .flags) s t ∧ readReg t .outP = BitVec.ofInt 32 v ∧
          readReg t .flags = readReg s .flags ||| 0x08
      | none => CompletesOffBus .compError noReg s t) ∧
    (ready → ∃ t, exec .cmph s = .next t ∧
      match s.params.compH coef s.tFine.toInt s.raw.h with
      | some v =>
        CompletesOffBus .ok (fun r => r = .outH ∨ r = .flags) s t ∧ readReg t .outH = BitVec.ofInt 32 v ∧
          readReg t .flags = readReg s .flags ||| 0x10
      | none => CompletesOffBus .compError noReg s t) ∧
    (¬ ready →
      (∃ t, exec .cmpp s = .next t ∧ CompletesOffBus .sequence noReg s t) ∧
      ∃ t, exec .cmph s = .next t ∧ CompletesOffBus .sequence noReg s t)

/-- CMPG writes OUT_G from COMP_G without needing T_DONE or a stable heater. (R231, R249, R250) -/
def Obligations.CmpgWritesTheGasResistance : Prop :=
  ∀ s : State,
    let coef := s.params.calDecode (s.calbuf.toList.take s.params.calLen)
    let ready := s.flags.calValid = true ∧ s.flags.rawValid = true
    (ready → ∃ t, exec .cmpg s = .next t ∧
      match s.params.compG coef s.raw.g s.raw.gr with
      | some v =>
        CompletesOffBus .ok (fun r => r = .outG ∨ r = .flags) s t ∧ readReg t .outG = BitVec.ofInt 32 v ∧
          readReg t .flags = readReg s .flags ||| 0x20
      | none => CompletesOffBus .compError noReg s t) ∧
    (¬ ready → ∃ t, exec .cmpg s = .next t ∧ CompletesOffBus .sequence noReg s t)

/-- CMPAQ writes to OUT_AQ how many boundaries in use the index reaches, once all four outputs are done. (R40, R252, R253,
R262) -/
def Obligations.CmpaqCountsTheBoundaries : Prop :=
  ∀ s : State,
    let x := s.params.aqIndex s.out.t.toInt s.out.p s.out.h s.out.g
    let ready := s.flags.tDone = true ∧ s.flags.pDone = true ∧ s.flags.hDone = true ∧ s.flags.gDone = true
    (ready →
      ∃ t, exec .cmpaq s = .next t ∧ CompletesOffBus .ok (fun r => r = .outAq ∨ r = .flags) s t ∧
        (readReg t .outAq).toNat =
          (Finset.univ.filter (fun i : Fin 7 => i.val < s.cfg.aqn.toNat ∧ s.cfg.aqb[i] ≤ x)).card ∧
        readReg t .flags = readReg s .flags ||| 0x40) ∧
    (¬ ready → ∃ t, exec .cmpaq s = .next t ∧ CompletesOffBus .sequence noReg s t)

/-- CMPALL is CMPT, CMPP, CMPH, CMPG, CMPAQ one after another up to the first that does not complete OK. (R255, R256, R273,
R275) -/
def Obligations.CmpallRunsTheFiveStages : Prop :=
  ∀ s : State, exec .cmpall s = runUntilError [.cmpt, .cmpp, .cmph, .cmpg, .cmpaq] s

/-- CMPALL with valid inputs and defined formulas writes the whole reading and sets every done flag. (R240, R243, R246, R249,
R252, R255, R256, R262) -/
def Obligations.CmpallWritesTheReading : Prop :=
  ∀ s : State,
    let coef := s.params.calDecode (s.calbuf.toList.take s.params.calLen)
    let ready := s.flags.calValid = true ∧ s.flags.rawValid = true
    (ready → ∀ tf vt vp vh vg, s.params.compT coef s.raw.t = some (tf, vt) →
      s.params.compP coef (BitVec.ofInt 32 tf).toInt s.raw.p = some vp →
      s.params.compH coef (BitVec.ofInt 32 tf).toInt s.raw.h = some vh →
      s.params.compG coef s.raw.g s.raw.gr = some vg →
      ∃ t, exec .cmpall s = .next t ∧
        CompletesOffBus .ok (fun r => r = .tFine ∨ r = .outT ∨ r = .outP ∨ r = .outH ∨ r = .outG ∨ r = .outAq ∨
          r = .flags) s t ∧
        readReg t .tFine = BitVec.ofInt 32 tf ∧ readReg t .outT = BitVec.ofInt 32 vt ∧
        readReg t .outP = BitVec.ofInt 32 vp ∧ readReg t .outH = BitVec.ofInt 32 vh ∧
        readReg t .outG = BitVec.ofInt 32 vg ∧ readReg t .flags = 0x7F ∧
        (readReg t .outAq).toNat = (Finset.univ.filter (fun i : Fin 7 => i.val < s.cfg.aqn.toNat ∧
          s.cfg.aqb[i] ≤ s.params.aqIndex t.out.t.toInt t.out.p t.out.h t.out.g)).card) ∧
    (¬ ready → ∃ t, exec .cmpall s = .next t ∧ CompletesOffBus .sequence noReg s t)

/-- aqBucket counts the boundaries reached, never falls as the index rises, and names its interval where they increase.
(R262) -/
def Obligations.AirQualityBucketingIsMonotonic : Prop :=
  ∀ c : CfgRegs,
    (∀ x : Word, aqBucket c x = (Finset.univ.filter (fun i : Fin 7 => i.val < c.aqn.toNat ∧ c.aqb[i] ≤ x)).card ∧
      aqBucket c x ≤ 7) ∧
    (∀ x y : Word, x ≤ y → aqBucket c x ≤ aqBucket c y) ∧
    ((∀ i j : Fin 7, i < j → j.val < c.aqn.toNat → c.aqb[i] ≤ c.aqb[j]) →
      ∀ (x : Word) (i : Fin 7), i.val < c.aqn.toNat →
        (aqBucket c x = i.val + 1 → c.aqb[i] ≤ x) ∧ (aqBucket c x = i.val → x < c.aqb[i]))

/-- Two runs of a compensation command from states equal in R239's inputs write equal outputs and complete alike. (R231,
R239) -/
def Obligations.CompensationIsDeterministic : Prop :=
  ∀ (i : Instr) (s s' : State), compensationCommand i → s.Current → s'.Current → s.paramSel = s'.paramSel →
    (∀ k : Fin 64, k.val < s.params.calLen → s.calbuf[k] = s'.calbuf[k]) → s.raw = s'.raw → s.tFine = s'.tFine →
    s.flags = s'.flags → s.cfg.aqb = s'.cfg.aqb → s.cfg.aqn = s'.cfg.aqn →
    let outputs : Reg → Prop := fun r =>
      r = .tFine ∨ r = .outT ∨ r = .outP ∨ r = .outH ∨ r = .outG ∨ r = .outAq
    ∃ t t', exec i s = .next t ∧ exec i s' = .next t' ∧ t.err = t'.err ∧ t.flags = t'.flags ∧
      (∀ r, outputs r → readReg t r = readReg t' r ∨ (readReg t r = readReg s r ∧ readReg t' r = readReg s' r)) ∧
      CompletesOffBus t.err (fun r => outputs r ∨ r = .flags) s t ∧
      CompletesOffBus t'.err (fun r => outputs r ∨ r = .flags) s' t'

/-! ### Parameters and invariants -/

/-- Every parameter record a block can have obeys R7, legalize leaves a legal record as it is, and no step changes the
record. How an unknown deployment is kept legal is a DESIGN CHOICE (log entry 10) (R7) -/
def Obligations.ParametersObeyTheirConstraints : Prop :=
  (∀ sel : ParamSel, (paramsOf sel).Legal) ∧ (∀ p : Params, p.Legal → legalize p = p) ∧
    ∀ s t : State, step s = .next t → t.paramSel = s.paramSel

/-- Every step keeps the done flags true: a flag that stands says its output is what the current inputs give. (R29, R30, R31,
R40, R326) -/
def Obligations.DoneFlagsAreCurrent : Prop :=
  ∀ s t : State, s.Current → step s = .next t → t.Current

/-- Every step keeps the Simulated bus's MAP in canonical form. The canonical form is a DESIGN CHOICE (log entry 11) (R61,
R70, R71, R72) -/
def Obligations.MemoryStaysCanonical : Prop :=
  ∀ s t : State, s.bus.map.wf → step s = .next t → t.bus.map.wf

/-- Every step keeps ERRMASK inside codes 1..8, CFG_MAXRETRY nonzero, and both state machines in pairs of their tables. (R25,
R38, R186, R190, R270) -/
def Obligations.StatusRegistersStayLegal : Prop :=
  ∀ s t : State, s.errmaskLegal ∧ s.retryLegal ∧ s.rtcCoherent ∧ s.snsCoherent → step s = .next t →
    t.errmaskLegal ∧ t.retryLegal ∧ t.rtcCoherent ∧ t.snsCoherent

/-- A block reset on any bus meets every invariant stated of the block, and on a fresh Simulated bus those of the bus. That
the MAP of State.reset is canonical rests on no rule but on two DESIGN CHOICES, its empty Simulated bus (log entry 1) and the
canonical form (log entry 11) (R21, R29, R38, R300) -/
def Obligations.ResetMeetsTheInvariants : Prop :=
  (∀ (sel : ParamSel) (bus : Bus), (State.resetOn sel bus).Current ∧ (State.resetOn sel bus).errmaskLegal ∧
      (State.resetOn sel bus).retryLegal ∧ (State.resetOn sel bus).rtcCoherent ∧ (State.resetOn sel bus).snsCoherent) ∧
    State.reset.Current ∧ State.reset.bus.map.wf

end
end

