-- ==== Sys2Proof/Laws/Buffers.lean ====
section
/-! SUPPORT. What storing bytes into BUF or CALBUF does to each byte. -/

namespace Sys2Proof.Machine

/-- Storing `bs` from index `k` on sets the bytes `k .. k + bs.length - 1` that exist and no other. -/
theorem getElem_storeBytes {n : Nat} (v : Vector Byte n) (k : Nat) (bs : List Byte) (i : Nat) (hi : i < n) :
    (storeBytes v k bs)[i] = if h : k ≤ i ∧ i < k + bs.length then bs[i - k] else v[i] := by
  induction bs generalizing v k with
  | nil => simp [storeBytes]
  | cons b bs ih =>
    rw [storeBytes, ih, Vector.getElem_setIfInBounds]
    by_cases hk : k = i
    · subst hk; simp
    · by_cases hin : k + 1 ≤ i ∧ i < k + 1 + bs.length
      · rw [dif_pos hin, dif_pos (by simp only [List.length_cons]; omega)]
        have : i - k = (i - (k + 1)) + 1 := by omega
        simp [this]
      · rw [dif_neg hin, dif_neg (by simp only [List.length_cons]; omega), if_neg hk]

/-- A byte outside the stored run is unchanged. -/
theorem getElem_storeBytes_outside {n : Nat} (v : Vector Byte n) (k : Nat) (bs : List Byte) (i : Nat) (hi : i < n)
    (h : ¬ (k ≤ i ∧ i < k + bs.length)) : (storeBytes v k bs)[i] = v[i] := by
  rw [getElem_storeBytes, dif_neg h]

/-- A byte inside the stored run is the stored one. -/
theorem getElem_storeBytes_inside {n : Nat} (v : Vector Byte n) (k : Nat) (bs : List Byte) (j : Nat) (hj : j < bs.length)
    (hi : k + j < n) : (storeBytes v k bs)[k + j] = bs[j] := by
  rw [getElem_storeBytes, dif_pos ⟨by omega, by omega⟩]
  simp

/-- The stored run reads back whole where it fits. -/
theorem take_drop_storeBytes {n : Nat} (v : Vector Byte n) (k : Nat) (bs : List Byte) (h : k + bs.length ≤ n) :
    ((storeBytes v k bs).toList.drop k).take bs.length = bs := by
  refine List.ext_getElem (by simp; omega) (fun j h1 h2 => ?_)
  have := getElem_storeBytes_inside v k bs j h2 (by omega)
  simpa using this

end Sys2Proof.Machine
end

