-- ==== Sys2Proof/Laws/Memory.lean ====
section
/-! SUPPORT. The laws of the Simulated bus's MAP: what a write reads back as, what it leaves alone, and that every memory
operation keeps the canonical form. -/

namespace Sys2Proof.Machine

@[simp] theorem Memory.read_nil (k : Nat) : Memory.read [] k = Memory.unlisted := rfl

theorem Memory.read_cons (c : Host.Cell) (m : Memory) (k : Nat) :
    Memory.read (c :: m) k = if c.1 = k then c.2 else Memory.read m k := by
  cases c; rfl

/-- Below every listed address a memory reads as unlisted. -/
theorem Memory.read_below (m : Memory) (k : Nat) (h : ∀ c ∈ m, k < c.1) : m.read k = Memory.unlisted := by
  induction m with
  | nil => rfl
  | cons c m ih =>
    rw [Memory.read_cons, if_neg (by have := h c (by simp); omega)]
    exact ih (fun d hd => h d (by simp [hd]))

theorem Memory.wf_tail {c : Host.Cell} {m : Memory} (h : Memory.wf (c :: m)) : Memory.wf m :=
  ⟨(List.pairwise_cons.1 h.1).2, fun d hd => h.2 d (by simp [hd])⟩

theorem Memory.wf_above {c : Host.Cell} {m : Memory} (h : Memory.wf (c :: m)) : ∀ d ∈ m, c.1 < d.1 :=
  (List.pairwise_cons.1 h.1).1

theorem Memory.read_place_same (m : Memory) (k : Nat) (b : Byte) (h : ∀ c ∈ m, k < c.1) :
    (Memory.place k b m).read k = b := by
  unfold Memory.place
  split
  · next hb => rw [Memory.read_below m k h, hb]
  · simp [Memory.read_cons]

theorem Memory.read_place_other (m : Memory) (k j : Nat) (b : Byte) (h : j ≠ k) :
    (Memory.place k b m).read j = m.read j := by
  unfold Memory.place
  split
  · rfl
  · rw [Memory.read_cons, if_neg (Ne.symm h)]

theorem Memory.wf_place {m : Memory} {k : Nat} {b : Byte} (hm : m.wf) (hk : k < busSpaceSize) (h : ∀ c ∈ m, k < c.1) :
    (Memory.place k b m).wf := by
  unfold Memory.place
  split
  · exact hm
  · next hb =>
    refine ⟨List.pairwise_cons.2 ⟨h, hm.1⟩, fun d hd => ?_⟩
    rcases List.mem_cons.1 hd with rfl | hd
    · exact ⟨hk, hb⟩
    · exact hm.2 d hd

/-- The addresses a write leaves listed lie above a bound that the old ones and the written one lie above. -/
theorem Memory.above_write {m : Memory} {lo k : Nat} {b : Byte} (h : ∀ c ∈ m, lo < c.1) (hk : lo < k) :
    ∀ c ∈ m.write k b, lo < c.1 := by
  induction m with
  | nil =>
    intro c hc
    simp only [Memory.write, Memory.place] at hc
    split at hc
    · simp at hc
    · simp at hc; simp [hc, hk]
  | cons d m ih =>
    obtain ⟨a, x⟩ := d
    have hm : ∀ c ∈ m, lo < c.1 := fun c hc => h c (by simp [hc])
    have ha : lo < a := h (a, x) (by simp)
    intro c hc
    simp only [Memory.write, Memory.place] at hc
    split at hc
    · split at hc
      · exact h c hc
      · rcases List.mem_cons.1 hc with rfl | hc
        · exact hk
        · exact h c hc
    · split at hc
      · split at hc
        · exact hm c hc
        · rcases List.mem_cons.1 hc with rfl | hc
          · exact hk
          · exact hm c hc
      · rcases List.mem_cons.1 hc with rfl | hc
        · exact ha
        · exact ih hm c hc

/-- A write keeps the canonical form. -/
theorem Memory.wf_write {m : Memory} (h : m.wf) {k : Nat} (hk : k < busSpaceSize) (b : Byte) : (m.write k b).wf := by
  induction m with
  | nil => exact Memory.wf_place h hk (by simp)
  | cons d m ih =>
    obtain ⟨a, x⟩ := d
    have above := Memory.wf_above h
    simp only [Memory.write]
    split
    · next hka =>
      refine Memory.wf_place h hk (fun c hc => ?_)
      rcases List.mem_cons.1 hc with rfl | hc
      · exact hka
      · exact Nat.lt_trans hka (above c hc)
    · split
      · next hka => exact Memory.wf_place (Memory.wf_tail h) hk (fun c hc => hka ▸ above c hc)
      · next h1 h2 =>
        have hw := ih (Memory.wf_tail h)
        refine ⟨List.pairwise_cons.2 ⟨Memory.above_write above (by simp only; omega), hw.1⟩, fun c hc => ?_⟩
        rcases List.mem_cons.1 hc with rfl | hc
        · exact h.2 (a, x) (by simp)
        · exact hw.2 c hc

/-- A write reads back as written. -/
theorem Memory.read_write_same {m : Memory} (h : m.wf) (k : Nat) (b : Byte) : (m.write k b).read k = b := by
  induction m with
  | nil => exact Memory.read_place_same [] k b (by simp)
  | cons d m ih =>
    obtain ⟨a, x⟩ := d
    have above := Memory.wf_above h
    simp only [Memory.write]
    split
    · next hka =>
      refine Memory.read_place_same _ k b (fun c hc => ?_)
      rcases List.mem_cons.1 hc with rfl | hc
      · exact hka
      · exact Nat.lt_trans hka (above c hc)
    · split
      · next hka => exact Memory.read_place_same _ k b (fun c hc => hka ▸ above c hc)
      · next h1 h2 =>
        rw [Memory.read_cons, if_neg (by simp only; omega)]
        exact ih (Memory.wf_tail h)

/-- A write leaves every other address alone, in canonical form or not. -/
theorem Memory.read_write_other (m : Memory) {k j : Nat} (b : Byte) (h : j ≠ k) : (m.write k b).read j = m.read j := by
  induction m with
  | nil => exact Memory.read_place_other [] k j b h
  | cons d m ih =>
    obtain ⟨a, x⟩ := d
    simp only [Memory.write]
    split
    · exact Memory.read_place_other _ k j b h
    · split
      · next hka => rw [Memory.read_place_other _ k j b h, Memory.read_cons, if_neg (by simp only; omega)]
      · rw [Memory.read_cons, Memory.read_cons, ih]

/-- Canonical memories that read the same everywhere are equal. -/
theorem Memory.eq_of_read {m n : Memory} (hm : m.wf) (hn : n.wf) (h : ∀ k, m.read k = n.read k) : m = n := by
  induction m generalizing n with
  | nil =>
    cases n with
    | nil => rfl
    | cons d n =>
      have := h d.1
      rw [Memory.read_cons, if_pos rfl] at this
      exact absurd this.symm (hn.2 d (by simp)).2
  | cons c m ih =>
    cases n with
    | nil =>
      have := h c.1
      rw [Memory.read_cons, if_pos rfl] at this
      exact absurd this (hm.2 c (by simp)).2
    | cons d n =>
      have hcd : c.1 = d.1 := by
        rcases Nat.lt_trichotomy c.1 d.1 with hlt | heq | hgt
        · have := h c.1
          rw [Memory.read_cons, if_pos rfl, Memory.read_below (d :: n) c.1] at this
          · exact absurd this (hm.2 c (by simp)).2
          · intro e he
            rcases List.mem_cons.1 he with rfl | he
            · exact hlt
            · exact Nat.lt_trans hlt (Memory.wf_above hn e he)
        · exact heq
        · have := h d.1
          rw [Memory.read_cons d, if_pos rfl, Memory.read_below (c :: m) d.1] at this
          · exact absurd this.symm (hn.2 d (by simp)).2
          · intro e he
            rcases List.mem_cons.1 he with rfl | he
            · exact hgt
            · exact Nat.lt_trans hgt (Memory.wf_above hm e he)
      have hv : c.2 = d.2 := by
        have := h c.1
        rwa [Memory.read_cons, if_pos rfl, Memory.read_cons, if_pos hcd.symm] at this
      have ht : ∀ k, Memory.read m k = Memory.read n k := by
        intro k
        by_cases hk : c.1 = k
        · rw [Memory.read_below m k (fun e he => hk ▸ Memory.wf_above hm e he),
            Memory.read_below n k (fun e he => hk ▸ hcd ▸ Memory.wf_above hn e he)]
        · have := h k
          rwa [Memory.read_cons, if_neg hk, Memory.read_cons, if_neg (hcd ▸ hk)] at this
      rw [ih (Memory.wf_tail hm) (Memory.wf_tail hn) ht, Prod.ext hcd hv]

/-! ### Addresses of the bus space -/

theorem busKey_lt (a : DevAddr) (r : RegOffset) (i : Nat) : busKey a r i < busSpaceSize := by
  have := a.isLt
  unfold busKey busSpaceSize
  omega

/-- Inside a legal transaction, byte `i` belongs to register `reg + i` (R65). -/
theorem busKey_eq (a : DevAddr) (r : RegOffset) (i : Nat) (h : r.toNat + i < 256) :
    busKey a r i = a.toNat * 256 + (r.toNat + i) := by
  unfold busKey
  omega

/-- Two byte registers of the bus space have one address only where they are one register of one device. -/
theorem busKey_inj {a b : DevAddr} {r q : RegOffset} {i j : Nat} (hi : r.toNat + i < 256) (hj : q.toNat + j < 256) :
    busKey a r i = busKey b q j ↔ a = b ∧ r.toNat + i = q.toNat + j := by
  rw [busKey_eq a r i hi, busKey_eq b q j hj]
  constructor
  · intro h
    exact ⟨BitVec.eq_of_toNat_eq (by omega), by omega⟩
  · rintro ⟨rfl, h⟩
    omega

/-! ### Blocks -/

/-- A block write keeps the canonical form. -/
theorem Memory.wf_writeBlock {m : Memory} (h : m.wf) (a : DevAddr) (r : RegOffset) (i : Nat) (bs : List Byte) :
    (m.writeBlock a r i bs).wf := by
  induction bs generalizing m i with
  | nil => exact h
  | cons b bs ih => exact ih (Memory.wf_write h (busKey_lt a r i) b) (i + 1)

/-- A block write leaves every address outside the block alone. -/
theorem Memory.read_writeBlock_other (m : Memory) (a : DevAddr) (r : RegOffset) (i : Nat) (bs : List Byte) (k : Nat)
    (h : ∀ j, i ≤ j → j < i + bs.length → k ≠ busKey a r j) : (m.writeBlock a r i bs).read k = m.read k := by
  induction bs generalizing m i with
  | nil => rfl
  | cons b bs ih =>
    rw [Memory.writeBlock, ih _ _ (fun j hj hl => h j (by omega) (by simp only [List.length_cons]; omega)),
      Memory.read_write_other m b (h i (Nat.le_refl i) (by simp only [List.length_cons]; omega))]

/-- A legal block write stores byte `j` of the block at register `reg + i + j`. -/
theorem Memory.read_writeBlock_same {m : Memory} (h : m.wf) (a : DevAddr) (r : RegOffset) (i : Nat) (bs : List Byte)
    (hr : r.toNat + i + bs.length ≤ 256) (j : Nat) (hj : j < bs.length) :
    (m.writeBlock a r i bs).read (busKey a r (i + j)) = bs[j] := by
  induction bs generalizing m i j with
  | nil => simp at hj
  | cons b bs ih =>
    simp only [List.length_cons] at hr hj
    have hw := Memory.wf_write h (busKey_lt a r i) b
    rw [Memory.writeBlock]
    cases j with
    | zero =>
      rw [Memory.read_writeBlock_other]
      · simpa using Memory.read_write_same h (busKey a r i) b
      · intro k hk hl heq
        have := (busKey_inj (a := a) (b := a) (r := r) (q := r) (i := i + 0) (j := k) (by omega) (by omega)).1 heq
        omega
    | succ j =>
      have := ih hw (i + 1) (by omega) j (by omega)
      rw [show i + (j + 1) = i + 1 + j by omega]
      simpa using this

@[simp] theorem Memory.length_readBlock (m : Memory) (a : DevAddr) (r : RegOffset) (n : Nat) :
    (m.readBlock a r n).length = n := by
  simp [Memory.readBlock]

@[simp] theorem Memory.getElem_readBlock (m : Memory) (a : DevAddr) (r : RegOffset) (n i : Nat)
    (h : i < (m.readBlock a r n).length) : (m.readBlock a r n)[i] = m.read (busKey a r i) := by
  simp [Memory.readBlock]

/-- A legal block reads back as written (R71, R72). -/
theorem Memory.readBlock_writeBlock {m : Memory} (h : m.wf) (a : DevAddr) (r : RegOffset) (bs : List Byte)
    (hr : r.toNat + bs.length ≤ 256) : (m.writeBlock a r 0 bs).readBlock a r bs.length = bs := by
  refine List.ext_getElem (by simp) (fun j h1 h2 => ?_)
  rw [Memory.getElem_readBlock]
  simpa using Memory.read_writeBlock_same h a r 0 bs (by omega) j h2

end Sys2Proof.Machine
end

