-- ==== Sys2Proof/Laws/State.lean ====
section
/-! SUPPORT. The record laws of State: each field, and the parameters, after each update, so that no proof unfolds an update. -/

namespace Sys2Proof.Machine

variable (s : State)

/-! ### setG -/

@[simp] theorem State.setG_g (r : GReg) (v : Word) : (s.setG r v).g = s.g.set r v := rfl
@[simp] theorem State.setG_err (r : GReg) (v : Word) : (s.setG r v).err = s.err := rfl
@[simp] theorem State.setG_errmask (r : GReg) (v : Word) : (s.setG r v).errmask = s.errmask := rfl
@[simp] theorem State.setG_rtcState (r : GReg) (v : Word) : (s.setG r v).rtcState = s.rtcState := rfl
@[simp] theorem State.setG_rtcDev (r : GReg) (v : Word) : (s.setG r v).rtcDev = s.rtcDev := rfl
@[simp] theorem State.setG_snsState (r : GReg) (v : Word) : (s.setG r v).snsState = s.snsState := rfl
@[simp] theorem State.setG_snsDev (r : GReg) (v : Word) : (s.setG r v).snsDev = s.snsDev := rfl
@[simp] theorem State.setG_flags (r : GReg) (v : Word) : (s.setG r v).flags = s.flags := rfl
@[simp] theorem State.setG_lastPolls (r : GReg) (v : Word) : (s.setG r v).lastPolls = s.lastPolls := rfl
@[simp] theorem State.setG_time (r : GReg) (v : Word) : (s.setG r v).time = s.time := rfl
@[simp] theorem State.setG_raw (r : GReg) (v : Word) : (s.setG r v).raw = s.raw := rfl
@[simp] theorem State.setG_tFine (r : GReg) (v : Word) : (s.setG r v).tFine = s.tFine := rfl
@[simp] theorem State.setG_out (r : GReg) (v : Word) : (s.setG r v).out = s.out := rfl
@[simp] theorem State.setG_cfg (r : GReg) (v : Word) : (s.setG r v).cfg = s.cfg := rfl
@[simp] theorem State.setG_calbuf (r : GReg) (v : Word) : (s.setG r v).calbuf = s.calbuf := rfl
@[simp] theorem State.setG_buf (r : GReg) (v : Word) : (s.setG r v).buf = s.buf := rfl
@[simp] theorem State.setG_bus (r : GReg) (v : Word) : (s.setG r v).bus = s.bus := rfl
@[simp] theorem State.setG_paramSel (r : GReg) (v : Word) : (s.setG r v).paramSel = s.paramSel := rfl
@[simp] theorem State.setG_port (r : GReg) (v : Word) : (s.setG r v).port = s.port := rfl
@[simp] theorem State.setG_hostData (r : GReg) (v : Word) : (s.setG r v).hostData = s.hostData := rfl
@[simp] theorem State.setG_params (r : GReg) (v : Word) : (s.setG r v).params = s.params := rfl

/-! ### storeBuf -/

@[simp] theorem State.storeBuf_g (k : Nat) (bs : List Byte) : (s.storeBuf k bs).g = s.g := rfl
@[simp] theorem State.storeBuf_err (k : Nat) (bs : List Byte) : (s.storeBuf k bs).err = s.err := rfl
@[simp] theorem State.storeBuf_errmask (k : Nat) (bs : List Byte) : (s.storeBuf k bs).errmask = s.errmask := rfl
@[simp] theorem State.storeBuf_rtcState (k : Nat) (bs : List Byte) : (s.storeBuf k bs).rtcState = s.rtcState := rfl
@[simp] theorem State.storeBuf_rtcDev (k : Nat) (bs : List Byte) : (s.storeBuf k bs).rtcDev = s.rtcDev := rfl
@[simp] theorem State.storeBuf_snsState (k : Nat) (bs : List Byte) : (s.storeBuf k bs).snsState = s.snsState := rfl
@[simp] theorem State.storeBuf_snsDev (k : Nat) (bs : List Byte) : (s.storeBuf k bs).snsDev = s.snsDev := rfl
@[simp] theorem State.storeBuf_flags (k : Nat) (bs : List Byte) : (s.storeBuf k bs).flags = s.flags := rfl
@[simp] theorem State.storeBuf_lastPolls (k : Nat) (bs : List Byte) : (s.storeBuf k bs).lastPolls = s.lastPolls := rfl
@[simp] theorem State.storeBuf_time (k : Nat) (bs : List Byte) : (s.storeBuf k bs).time = s.time := rfl
@[simp] theorem State.storeBuf_raw (k : Nat) (bs : List Byte) : (s.storeBuf k bs).raw = s.raw := rfl
@[simp] theorem State.storeBuf_tFine (k : Nat) (bs : List Byte) : (s.storeBuf k bs).tFine = s.tFine := rfl
@[simp] theorem State.storeBuf_out (k : Nat) (bs : List Byte) : (s.storeBuf k bs).out = s.out := rfl
@[simp] theorem State.storeBuf_cfg (k : Nat) (bs : List Byte) : (s.storeBuf k bs).cfg = s.cfg := rfl
@[simp] theorem State.storeBuf_calbuf (k : Nat) (bs : List Byte) : (s.storeBuf k bs).calbuf = s.calbuf := rfl
@[simp] theorem State.storeBuf_buf (k : Nat) (bs : List Byte) : (s.storeBuf k bs).buf = storeBytes s.buf k bs := rfl
@[simp] theorem State.storeBuf_bus (k : Nat) (bs : List Byte) : (s.storeBuf k bs).bus = s.bus := rfl
@[simp] theorem State.storeBuf_paramSel (k : Nat) (bs : List Byte) : (s.storeBuf k bs).paramSel = s.paramSel := rfl
@[simp] theorem State.storeBuf_port (k : Nat) (bs : List Byte) : (s.storeBuf k bs).port = s.port := rfl
@[simp] theorem State.storeBuf_hostData (k : Nat) (bs : List Byte) : (s.storeBuf k bs).hostData = s.hostData := rfl
@[simp] theorem State.storeBuf_params (k : Nat) (bs : List Byte) : (s.storeBuf k bs).params = s.params := rfl

/-! ### storeCalbuf -/

@[simp] theorem State.storeCalbuf_g (k : Nat) (bs : List Byte) : (s.storeCalbuf k bs).g = s.g := rfl
@[simp] theorem State.storeCalbuf_err (k : Nat) (bs : List Byte) : (s.storeCalbuf k bs).err = s.err := rfl
@[simp] theorem State.storeCalbuf_errmask (k : Nat) (bs : List Byte) : (s.storeCalbuf k bs).errmask = s.errmask := rfl
@[simp] theorem State.storeCalbuf_rtcState (k : Nat) (bs : List Byte) : (s.storeCalbuf k bs).rtcState = s.rtcState := rfl
@[simp] theorem State.storeCalbuf_rtcDev (k : Nat) (bs : List Byte) : (s.storeCalbuf k bs).rtcDev = s.rtcDev := rfl
@[simp] theorem State.storeCalbuf_snsState (k : Nat) (bs : List Byte) : (s.storeCalbuf k bs).snsState = s.snsState := rfl
@[simp] theorem State.storeCalbuf_snsDev (k : Nat) (bs : List Byte) : (s.storeCalbuf k bs).snsDev = s.snsDev := rfl
@[simp] theorem State.storeCalbuf_flags (k : Nat) (bs : List Byte) : (s.storeCalbuf k bs).flags = s.flags := rfl
@[simp] theorem State.storeCalbuf_lastPolls (k : Nat) (bs : List Byte) : (s.storeCalbuf k bs).lastPolls = s.lastPolls := rfl
@[simp] theorem State.storeCalbuf_time (k : Nat) (bs : List Byte) : (s.storeCalbuf k bs).time = s.time := rfl
@[simp] theorem State.storeCalbuf_raw (k : Nat) (bs : List Byte) : (s.storeCalbuf k bs).raw = s.raw := rfl
@[simp] theorem State.storeCalbuf_tFine (k : Nat) (bs : List Byte) : (s.storeCalbuf k bs).tFine = s.tFine := rfl
@[simp] theorem State.storeCalbuf_out (k : Nat) (bs : List Byte) : (s.storeCalbuf k bs).out = s.out := rfl
@[simp] theorem State.storeCalbuf_cfg (k : Nat) (bs : List Byte) : (s.storeCalbuf k bs).cfg = s.cfg := rfl
@[simp] theorem State.storeCalbuf_calbuf (k : Nat) (bs : List Byte) : (s.storeCalbuf k bs).calbuf = storeBytes s.calbuf k bs := rfl
@[simp] theorem State.storeCalbuf_buf (k : Nat) (bs : List Byte) : (s.storeCalbuf k bs).buf = s.buf := rfl
@[simp] theorem State.storeCalbuf_bus (k : Nat) (bs : List Byte) : (s.storeCalbuf k bs).bus = s.bus := rfl
@[simp] theorem State.storeCalbuf_paramSel (k : Nat) (bs : List Byte) : (s.storeCalbuf k bs).paramSel = s.paramSel := rfl
@[simp] theorem State.storeCalbuf_port (k : Nat) (bs : List Byte) : (s.storeCalbuf k bs).port = s.port := rfl
@[simp] theorem State.storeCalbuf_hostData (k : Nat) (bs : List Byte) : (s.storeCalbuf k bs).hostData = s.hostData := rfl
@[simp] theorem State.storeCalbuf_params (k : Nat) (bs : List Byte) : (s.storeCalbuf k bs).params = s.params := rfl

/-! ### setFlags -/

@[simp] theorem State.setFlags_g (f : Flags) : (s.setFlags f).g = s.g := rfl
@[simp] theorem State.setFlags_err (f : Flags) : (s.setFlags f).err = s.err := rfl
@[simp] theorem State.setFlags_errmask (f : Flags) : (s.setFlags f).errmask = s.errmask := rfl
@[simp] theorem State.setFlags_rtcState (f : Flags) : (s.setFlags f).rtcState = s.rtcState := rfl
@[simp] theorem State.setFlags_rtcDev (f : Flags) : (s.setFlags f).rtcDev = s.rtcDev := rfl
@[simp] theorem State.setFlags_snsState (f : Flags) : (s.setFlags f).snsState = s.snsState := rfl
@[simp] theorem State.setFlags_snsDev (f : Flags) : (s.setFlags f).snsDev = s.snsDev := rfl
@[simp] theorem State.setFlags_flags (f : Flags) : (s.setFlags f).flags = f := rfl
@[simp] theorem State.setFlags_lastPolls (f : Flags) : (s.setFlags f).lastPolls = s.lastPolls := rfl
@[simp] theorem State.setFlags_time (f : Flags) : (s.setFlags f).time = s.time := rfl
@[simp] theorem State.setFlags_raw (f : Flags) : (s.setFlags f).raw = s.raw := rfl
@[simp] theorem State.setFlags_tFine (f : Flags) : (s.setFlags f).tFine = s.tFine := rfl
@[simp] theorem State.setFlags_out (f : Flags) : (s.setFlags f).out = s.out := rfl
@[simp] theorem State.setFlags_cfg (f : Flags) : (s.setFlags f).cfg = s.cfg := rfl
@[simp] theorem State.setFlags_calbuf (f : Flags) : (s.setFlags f).calbuf = s.calbuf := rfl
@[simp] theorem State.setFlags_buf (f : Flags) : (s.setFlags f).buf = s.buf := rfl
@[simp] theorem State.setFlags_bus (f : Flags) : (s.setFlags f).bus = s.bus := rfl
@[simp] theorem State.setFlags_paramSel (f : Flags) : (s.setFlags f).paramSel = s.paramSel := rfl
@[simp] theorem State.setFlags_port (f : Flags) : (s.setFlags f).port = s.port := rfl
@[simp] theorem State.setFlags_hostData (f : Flags) : (s.setFlags f).hostData = s.hostData := rfl
@[simp] theorem State.setFlags_params (f : Flags) : (s.setFlags f).params = s.params := rfl

/-! ### setTime -/

@[simp] theorem State.setTime_g (t : RtcTime) : (s.setTime t).g = s.g := rfl
@[simp] theorem State.setTime_err (t : RtcTime) : (s.setTime t).err = s.err := rfl
@[simp] theorem State.setTime_errmask (t : RtcTime) : (s.setTime t).errmask = s.errmask := rfl
@[simp] theorem State.setTime_rtcState (t : RtcTime) : (s.setTime t).rtcState = s.rtcState := rfl
@[simp] theorem State.setTime_rtcDev (t : RtcTime) : (s.setTime t).rtcDev = s.rtcDev := rfl
@[simp] theorem State.setTime_snsState (t : RtcTime) : (s.setTime t).snsState = s.snsState := rfl
@[simp] theorem State.setTime_snsDev (t : RtcTime) : (s.setTime t).snsDev = s.snsDev := rfl
@[simp] theorem State.setTime_flags (t : RtcTime) : (s.setTime t).flags = s.flags := rfl
@[simp] theorem State.setTime_lastPolls (t : RtcTime) : (s.setTime t).lastPolls = s.lastPolls := rfl
@[simp] theorem State.setTime_time (t : RtcTime) : (s.setTime t).time = t := rfl
@[simp] theorem State.setTime_raw (t : RtcTime) : (s.setTime t).raw = s.raw := rfl
@[simp] theorem State.setTime_tFine (t : RtcTime) : (s.setTime t).tFine = s.tFine := rfl
@[simp] theorem State.setTime_out (t : RtcTime) : (s.setTime t).out = s.out := rfl
@[simp] theorem State.setTime_cfg (t : RtcTime) : (s.setTime t).cfg = s.cfg := rfl
@[simp] theorem State.setTime_calbuf (t : RtcTime) : (s.setTime t).calbuf = s.calbuf := rfl
@[simp] theorem State.setTime_buf (t : RtcTime) : (s.setTime t).buf = s.buf := rfl
@[simp] theorem State.setTime_bus (t : RtcTime) : (s.setTime t).bus = s.bus := rfl
@[simp] theorem State.setTime_paramSel (t : RtcTime) : (s.setTime t).paramSel = s.paramSel := rfl
@[simp] theorem State.setTime_port (t : RtcTime) : (s.setTime t).port = s.port := rfl
@[simp] theorem State.setTime_hostData (t : RtcTime) : (s.setTime t).hostData = s.hostData := rfl
@[simp] theorem State.setTime_params (t : RtcTime) : (s.setTime t).params = s.params := rfl

/-! ### setRaw -/

@[simp] theorem State.setRaw_g (r : RawSample) : (s.setRaw r).g = s.g := rfl
@[simp] theorem State.setRaw_err (r : RawSample) : (s.setRaw r).err = s.err := rfl
@[simp] theorem State.setRaw_errmask (r : RawSample) : (s.setRaw r).errmask = s.errmask := rfl
@[simp] theorem State.setRaw_rtcState (r : RawSample) : (s.setRaw r).rtcState = s.rtcState := rfl
@[simp] theorem State.setRaw_rtcDev (r : RawSample) : (s.setRaw r).rtcDev = s.rtcDev := rfl
@[simp] theorem State.setRaw_snsState (r : RawSample) : (s.setRaw r).snsState = s.snsState := rfl
@[simp] theorem State.setRaw_snsDev (r : RawSample) : (s.setRaw r).snsDev = s.snsDev := rfl
@[simp] theorem State.setRaw_flags (r : RawSample) : (s.setRaw r).flags = s.flags := rfl
@[simp] theorem State.setRaw_lastPolls (r : RawSample) : (s.setRaw r).lastPolls = s.lastPolls := rfl
@[simp] theorem State.setRaw_time (r : RawSample) : (s.setRaw r).time = s.time := rfl
@[simp] theorem State.setRaw_raw (r : RawSample) : (s.setRaw r).raw = r := rfl
@[simp] theorem State.setRaw_tFine (r : RawSample) : (s.setRaw r).tFine = s.tFine := rfl
@[simp] theorem State.setRaw_out (r : RawSample) : (s.setRaw r).out = s.out := rfl
@[simp] theorem State.setRaw_cfg (r : RawSample) : (s.setRaw r).cfg = s.cfg := rfl
@[simp] theorem State.setRaw_calbuf (r : RawSample) : (s.setRaw r).calbuf = s.calbuf := rfl
@[simp] theorem State.setRaw_buf (r : RawSample) : (s.setRaw r).buf = s.buf := rfl
@[simp] theorem State.setRaw_bus (r : RawSample) : (s.setRaw r).bus = s.bus := rfl
@[simp] theorem State.setRaw_paramSel (r : RawSample) : (s.setRaw r).paramSel = s.paramSel := rfl
@[simp] theorem State.setRaw_port (r : RawSample) : (s.setRaw r).port = s.port := rfl
@[simp] theorem State.setRaw_hostData (r : RawSample) : (s.setRaw r).hostData = s.hostData := rfl
@[simp] theorem State.setRaw_params (r : RawSample) : (s.setRaw r).params = s.params := rfl

/-! ### setTFine -/

@[simp] theorem State.setTFine_g (v : Word) : (s.setTFine v).g = s.g := rfl
@[simp] theorem State.setTFine_err (v : Word) : (s.setTFine v).err = s.err := rfl
@[simp] theorem State.setTFine_errmask (v : Word) : (s.setTFine v).errmask = s.errmask := rfl
@[simp] theorem State.setTFine_rtcState (v : Word) : (s.setTFine v).rtcState = s.rtcState := rfl
@[simp] theorem State.setTFine_rtcDev (v : Word) : (s.setTFine v).rtcDev = s.rtcDev := rfl
@[simp] theorem State.setTFine_snsState (v : Word) : (s.setTFine v).snsState = s.snsState := rfl
@[simp] theorem State.setTFine_snsDev (v : Word) : (s.setTFine v).snsDev = s.snsDev := rfl
@[simp] theorem State.setTFine_flags (v : Word) : (s.setTFine v).flags = s.flags := rfl
@[simp] theorem State.setTFine_lastPolls (v : Word) : (s.setTFine v).lastPolls = s.lastPolls := rfl
@[simp] theorem State.setTFine_time (v : Word) : (s.setTFine v).time = s.time := rfl
@[simp] theorem State.setTFine_raw (v : Word) : (s.setTFine v).raw = s.raw := rfl
@[simp] theorem State.setTFine_tFine (v : Word) : (s.setTFine v).tFine = v := rfl
@[simp] theorem State.setTFine_out (v : Word) : (s.setTFine v).out = s.out := rfl
@[simp] theorem State.setTFine_cfg (v : Word) : (s.setTFine v).cfg = s.cfg := rfl
@[simp] theorem State.setTFine_calbuf (v : Word) : (s.setTFine v).calbuf = s.calbuf := rfl
@[simp] theorem State.setTFine_buf (v : Word) : (s.setTFine v).buf = s.buf := rfl
@[simp] theorem State.setTFine_bus (v : Word) : (s.setTFine v).bus = s.bus := rfl
@[simp] theorem State.setTFine_paramSel (v : Word) : (s.setTFine v).paramSel = s.paramSel := rfl
@[simp] theorem State.setTFine_port (v : Word) : (s.setTFine v).port = s.port := rfl
@[simp] theorem State.setTFine_hostData (v : Word) : (s.setTFine v).hostData = s.hostData := rfl
@[simp] theorem State.setTFine_params (v : Word) : (s.setTFine v).params = s.params := rfl

/-! ### setOut -/

@[simp] theorem State.setOut_g (o : Outputs) : (s.setOut o).g = s.g := rfl
@[simp] theorem State.setOut_err (o : Outputs) : (s.setOut o).err = s.err := rfl
@[simp] theorem State.setOut_errmask (o : Outputs) : (s.setOut o).errmask = s.errmask := rfl
@[simp] theorem State.setOut_rtcState (o : Outputs) : (s.setOut o).rtcState = s.rtcState := rfl
@[simp] theorem State.setOut_rtcDev (o : Outputs) : (s.setOut o).rtcDev = s.rtcDev := rfl
@[simp] theorem State.setOut_snsState (o : Outputs) : (s.setOut o).snsState = s.snsState := rfl
@[simp] theorem State.setOut_snsDev (o : Outputs) : (s.setOut o).snsDev = s.snsDev := rfl
@[simp] theorem State.setOut_flags (o : Outputs) : (s.setOut o).flags = s.flags := rfl
@[simp] theorem State.setOut_lastPolls (o : Outputs) : (s.setOut o).lastPolls = s.lastPolls := rfl
@[simp] theorem State.setOut_time (o : Outputs) : (s.setOut o).time = s.time := rfl
@[simp] theorem State.setOut_raw (o : Outputs) : (s.setOut o).raw = s.raw := rfl
@[simp] theorem State.setOut_tFine (o : Outputs) : (s.setOut o).tFine = s.tFine := rfl
@[simp] theorem State.setOut_out (o : Outputs) : (s.setOut o).out = o := rfl
@[simp] theorem State.setOut_cfg (o : Outputs) : (s.setOut o).cfg = s.cfg := rfl
@[simp] theorem State.setOut_calbuf (o : Outputs) : (s.setOut o).calbuf = s.calbuf := rfl
@[simp] theorem State.setOut_buf (o : Outputs) : (s.setOut o).buf = s.buf := rfl
@[simp] theorem State.setOut_bus (o : Outputs) : (s.setOut o).bus = s.bus := rfl
@[simp] theorem State.setOut_paramSel (o : Outputs) : (s.setOut o).paramSel = s.paramSel := rfl
@[simp] theorem State.setOut_port (o : Outputs) : (s.setOut o).port = s.port := rfl
@[simp] theorem State.setOut_hostData (o : Outputs) : (s.setOut o).hostData = s.hostData := rfl
@[simp] theorem State.setOut_params (o : Outputs) : (s.setOut o).params = s.params := rfl

/-! ### setCfg -/

@[simp] theorem State.setCfg_g (c : CfgRegs) : (s.setCfg c).g = s.g := rfl
@[simp] theorem State.setCfg_err (c : CfgRegs) : (s.setCfg c).err = s.err := rfl
@[simp] theorem State.setCfg_errmask (c : CfgRegs) : (s.setCfg c).errmask = s.errmask := rfl
@[simp] theorem State.setCfg_rtcState (c : CfgRegs) : (s.setCfg c).rtcState = s.rtcState := rfl
@[simp] theorem State.setCfg_rtcDev (c : CfgRegs) : (s.setCfg c).rtcDev = s.rtcDev := rfl
@[simp] theorem State.setCfg_snsState (c : CfgRegs) : (s.setCfg c).snsState = s.snsState := rfl
@[simp] theorem State.setCfg_snsDev (c : CfgRegs) : (s.setCfg c).snsDev = s.snsDev := rfl
@[simp] theorem State.setCfg_flags (c : CfgRegs) : (s.setCfg c).flags = s.flags := rfl
@[simp] theorem State.setCfg_lastPolls (c : CfgRegs) : (s.setCfg c).lastPolls = s.lastPolls := rfl
@[simp] theorem State.setCfg_time (c : CfgRegs) : (s.setCfg c).time = s.time := rfl
@[simp] theorem State.setCfg_raw (c : CfgRegs) : (s.setCfg c).raw = s.raw := rfl
@[simp] theorem State.setCfg_tFine (c : CfgRegs) : (s.setCfg c).tFine = s.tFine := rfl
@[simp] theorem State.setCfg_out (c : CfgRegs) : (s.setCfg c).out = s.out := rfl
@[simp] theorem State.setCfg_cfg (c : CfgRegs) : (s.setCfg c).cfg = c := rfl
@[simp] theorem State.setCfg_calbuf (c : CfgRegs) : (s.setCfg c).calbuf = s.calbuf := rfl
@[simp] theorem State.setCfg_buf (c : CfgRegs) : (s.setCfg c).buf = s.buf := rfl
@[simp] theorem State.setCfg_bus (c : CfgRegs) : (s.setCfg c).bus = s.bus := rfl
@[simp] theorem State.setCfg_paramSel (c : CfgRegs) : (s.setCfg c).paramSel = s.paramSel := rfl
@[simp] theorem State.setCfg_port (c : CfgRegs) : (s.setCfg c).port = s.port := rfl
@[simp] theorem State.setCfg_hostData (c : CfgRegs) : (s.setCfg c).hostData = s.hostData := rfl
@[simp] theorem State.setCfg_params (c : CfgRegs) : (s.setCfg c).params = s.params := rfl

/-! ### setErrmask -/

@[simp] theorem State.setErrmask_g (m : BitVec 16) : (s.setErrmask m).g = s.g := rfl
@[simp] theorem State.setErrmask_err (m : BitVec 16) : (s.setErrmask m).err = s.err := rfl
@[simp] theorem State.setErrmask_errmask (m : BitVec 16) : (s.setErrmask m).errmask = m := rfl
@[simp] theorem State.setErrmask_rtcState (m : BitVec 16) : (s.setErrmask m).rtcState = s.rtcState := rfl
@[simp] theorem State.setErrmask_rtcDev (m : BitVec 16) : (s.setErrmask m).rtcDev = s.rtcDev := rfl
@[simp] theorem State.setErrmask_snsState (m : BitVec 16) : (s.setErrmask m).snsState = s.snsState := rfl
@[simp] theorem State.setErrmask_snsDev (m : BitVec 16) : (s.setErrmask m).snsDev = s.snsDev := rfl
@[simp] theorem State.setErrmask_flags (m : BitVec 16) : (s.setErrmask m).flags = s.flags := rfl
@[simp] theorem State.setErrmask_lastPolls (m : BitVec 16) : (s.setErrmask m).lastPolls = s.lastPolls := rfl
@[simp] theorem State.setErrmask_time (m : BitVec 16) : (s.setErrmask m).time = s.time := rfl
@[simp] theorem State.setErrmask_raw (m : BitVec 16) : (s.setErrmask m).raw = s.raw := rfl
@[simp] theorem State.setErrmask_tFine (m : BitVec 16) : (s.setErrmask m).tFine = s.tFine := rfl
@[simp] theorem State.setErrmask_out (m : BitVec 16) : (s.setErrmask m).out = s.out := rfl
@[simp] theorem State.setErrmask_cfg (m : BitVec 16) : (s.setErrmask m).cfg = s.cfg := rfl
@[simp] theorem State.setErrmask_calbuf (m : BitVec 16) : (s.setErrmask m).calbuf = s.calbuf := rfl
@[simp] theorem State.setErrmask_buf (m : BitVec 16) : (s.setErrmask m).buf = s.buf := rfl
@[simp] theorem State.setErrmask_bus (m : BitVec 16) : (s.setErrmask m).bus = s.bus := rfl
@[simp] theorem State.setErrmask_paramSel (m : BitVec 16) : (s.setErrmask m).paramSel = s.paramSel := rfl
@[simp] theorem State.setErrmask_port (m : BitVec 16) : (s.setErrmask m).port = s.port := rfl
@[simp] theorem State.setErrmask_hostData (m : BitVec 16) : (s.setErrmask m).hostData = s.hostData := rfl
@[simp] theorem State.setErrmask_params (m : BitVec 16) : (s.setErrmask m).params = s.params := rfl

/-! ### setRtc -/

@[simp] theorem State.setRtc_g (st : RtcState) (dev : DeviceStatus) : (s.setRtc st dev).g = s.g := rfl
@[simp] theorem State.setRtc_err (st : RtcState) (dev : DeviceStatus) : (s.setRtc st dev).err = s.err := rfl
@[simp] theorem State.setRtc_errmask (st : RtcState) (dev : DeviceStatus) : (s.setRtc st dev).errmask = s.errmask := rfl
@[simp] theorem State.setRtc_rtcState (st : RtcState) (dev : DeviceStatus) : (s.setRtc st dev).rtcState = st := rfl
@[simp] theorem State.setRtc_rtcDev (st : RtcState) (dev : DeviceStatus) : (s.setRtc st dev).rtcDev = dev := rfl
@[simp] theorem State.setRtc_snsState (st : RtcState) (dev : DeviceStatus) : (s.setRtc st dev).snsState = s.snsState := rfl
@[simp] theorem State.setRtc_snsDev (st : RtcState) (dev : DeviceStatus) : (s.setRtc st dev).snsDev = s.snsDev := rfl
@[simp] theorem State.setRtc_flags (st : RtcState) (dev : DeviceStatus) : (s.setRtc st dev).flags = s.flags := rfl
@[simp] theorem State.setRtc_lastPolls (st : RtcState) (dev : DeviceStatus) : (s.setRtc st dev).lastPolls = s.lastPolls := rfl
@[simp] theorem State.setRtc_time (st : RtcState) (dev : DeviceStatus) : (s.setRtc st dev).time = s.time := rfl
@[simp] theorem State.setRtc_raw (st : RtcState) (dev : DeviceStatus) : (s.setRtc st dev).raw = s.raw := rfl
@[simp] theorem State.setRtc_tFine (st : RtcState) (dev : DeviceStatus) : (s.setRtc st dev).tFine = s.tFine := rfl
@[simp] theorem State.setRtc_out (st : RtcState) (dev : DeviceStatus) : (s.setRtc st dev).out = s.out := rfl
@[simp] theorem State.setRtc_cfg (st : RtcState) (dev : DeviceStatus) : (s.setRtc st dev).cfg = s.cfg := rfl
@[simp] theorem State.setRtc_calbuf (st : RtcState) (dev : DeviceStatus) : (s.setRtc st dev).calbuf = s.calbuf := rfl
@[simp] theorem State.setRtc_buf (st : RtcState) (dev : DeviceStatus) : (s.setRtc st dev).buf = s.buf := rfl
@[simp] theorem State.setRtc_bus (st : RtcState) (dev : DeviceStatus) : (s.setRtc st dev).bus = s.bus := rfl
@[simp] theorem State.setRtc_paramSel (st : RtcState) (dev : DeviceStatus) : (s.setRtc st dev).paramSel = s.paramSel := rfl
@[simp] theorem State.setRtc_port (st : RtcState) (dev : DeviceStatus) : (s.setRtc st dev).port = s.port := rfl
@[simp] theorem State.setRtc_hostData (st : RtcState) (dev : DeviceStatus) : (s.setRtc st dev).hostData = s.hostData := rfl
@[simp] theorem State.setRtc_params (st : RtcState) (dev : DeviceStatus) : (s.setRtc st dev).params = s.params := rfl

/-! ### setSns -/

@[simp] theorem State.setSns_g (st : SnsState) (dev : DeviceStatus) : (s.setSns st dev).g = s.g := rfl
@[simp] theorem State.setSns_err (st : SnsState) (dev : DeviceStatus) : (s.setSns st dev).err = s.err := rfl
@[simp] theorem State.setSns_errmask (st : SnsState) (dev : DeviceStatus) : (s.setSns st dev).errmask = s.errmask := rfl
@[simp] theorem State.setSns_rtcState (st : SnsState) (dev : DeviceStatus) : (s.setSns st dev).rtcState = s.rtcState := rfl
@[simp] theorem State.setSns_rtcDev (st : SnsState) (dev : DeviceStatus) : (s.setSns st dev).rtcDev = s.rtcDev := rfl
@[simp] theorem State.setSns_snsState (st : SnsState) (dev : DeviceStatus) : (s.setSns st dev).snsState = st := rfl
@[simp] theorem State.setSns_snsDev (st : SnsState) (dev : DeviceStatus) : (s.setSns st dev).snsDev = dev := rfl
@[simp] theorem State.setSns_flags (st : SnsState) (dev : DeviceStatus) : (s.setSns st dev).flags = s.flags := rfl
@[simp] theorem State.setSns_lastPolls (st : SnsState) (dev : DeviceStatus) : (s.setSns st dev).lastPolls = s.lastPolls := rfl
@[simp] theorem State.setSns_time (st : SnsState) (dev : DeviceStatus) : (s.setSns st dev).time = s.time := rfl
@[simp] theorem State.setSns_raw (st : SnsState) (dev : DeviceStatus) : (s.setSns st dev).raw = s.raw := rfl
@[simp] theorem State.setSns_tFine (st : SnsState) (dev : DeviceStatus) : (s.setSns st dev).tFine = s.tFine := rfl
@[simp] theorem State.setSns_out (st : SnsState) (dev : DeviceStatus) : (s.setSns st dev).out = s.out := rfl
@[simp] theorem State.setSns_cfg (st : SnsState) (dev : DeviceStatus) : (s.setSns st dev).cfg = s.cfg := rfl
@[simp] theorem State.setSns_calbuf (st : SnsState) (dev : DeviceStatus) : (s.setSns st dev).calbuf = s.calbuf := rfl
@[simp] theorem State.setSns_buf (st : SnsState) (dev : DeviceStatus) : (s.setSns st dev).buf = s.buf := rfl
@[simp] theorem State.setSns_bus (st : SnsState) (dev : DeviceStatus) : (s.setSns st dev).bus = s.bus := rfl
@[simp] theorem State.setSns_paramSel (st : SnsState) (dev : DeviceStatus) : (s.setSns st dev).paramSel = s.paramSel := rfl
@[simp] theorem State.setSns_port (st : SnsState) (dev : DeviceStatus) : (s.setSns st dev).port = s.port := rfl
@[simp] theorem State.setSns_hostData (st : SnsState) (dev : DeviceStatus) : (s.setSns st dev).hostData = s.hostData := rfl
@[simp] theorem State.setSns_params (st : SnsState) (dev : DeviceStatus) : (s.setSns st dev).params = s.params := rfl

/-! ### setPolls -/

@[simp] theorem State.setPolls_g (n : BitVec 8) : (s.setPolls n).g = s.g := rfl
@[simp] theorem State.setPolls_err (n : BitVec 8) : (s.setPolls n).err = s.err := rfl
@[simp] theorem State.setPolls_errmask (n : BitVec 8) : (s.setPolls n).errmask = s.errmask := rfl
@[simp] theorem State.setPolls_rtcState (n : BitVec 8) : (s.setPolls n).rtcState = s.rtcState := rfl
@[simp] theorem State.setPolls_rtcDev (n : BitVec 8) : (s.setPolls n).rtcDev = s.rtcDev := rfl
@[simp] theorem State.setPolls_snsState (n : BitVec 8) : (s.setPolls n).snsState = s.snsState := rfl
@[simp] theorem State.setPolls_snsDev (n : BitVec 8) : (s.setPolls n).snsDev = s.snsDev := rfl
@[simp] theorem State.setPolls_flags (n : BitVec 8) : (s.setPolls n).flags = s.flags := rfl
@[simp] theorem State.setPolls_lastPolls (n : BitVec 8) : (s.setPolls n).lastPolls = n := rfl
@[simp] theorem State.setPolls_time (n : BitVec 8) : (s.setPolls n).time = s.time := rfl
@[simp] theorem State.setPolls_raw (n : BitVec 8) : (s.setPolls n).raw = s.raw := rfl
@[simp] theorem State.setPolls_tFine (n : BitVec 8) : (s.setPolls n).tFine = s.tFine := rfl
@[simp] theorem State.setPolls_out (n : BitVec 8) : (s.setPolls n).out = s.out := rfl
@[simp] theorem State.setPolls_cfg (n : BitVec 8) : (s.setPolls n).cfg = s.cfg := rfl
@[simp] theorem State.setPolls_calbuf (n : BitVec 8) : (s.setPolls n).calbuf = s.calbuf := rfl
@[simp] theorem State.setPolls_buf (n : BitVec 8) : (s.setPolls n).buf = s.buf := rfl
@[simp] theorem State.setPolls_bus (n : BitVec 8) : (s.setPolls n).bus = s.bus := rfl
@[simp] theorem State.setPolls_paramSel (n : BitVec 8) : (s.setPolls n).paramSel = s.paramSel := rfl
@[simp] theorem State.setPolls_port (n : BitVec 8) : (s.setPolls n).port = s.port := rfl
@[simp] theorem State.setPolls_hostData (n : BitVec 8) : (s.setPolls n).hostData = s.hostData := rfl
@[simp] theorem State.setPolls_params (n : BitVec 8) : (s.setPolls n).params = s.params := rfl

/-! ### setBus -/

@[simp] theorem State.setBus_g (b : Bus) : (s.setBus b).g = s.g := rfl
@[simp] theorem State.setBus_err (b : Bus) : (s.setBus b).err = s.err := rfl
@[simp] theorem State.setBus_errmask (b : Bus) : (s.setBus b).errmask = s.errmask := rfl
@[simp] theorem State.setBus_rtcState (b : Bus) : (s.setBus b).rtcState = s.rtcState := rfl
@[simp] theorem State.setBus_rtcDev (b : Bus) : (s.setBus b).rtcDev = s.rtcDev := rfl
@[simp] theorem State.setBus_snsState (b : Bus) : (s.setBus b).snsState = s.snsState := rfl
@[simp] theorem State.setBus_snsDev (b : Bus) : (s.setBus b).snsDev = s.snsDev := rfl
@[simp] theorem State.setBus_flags (b : Bus) : (s.setBus b).flags = s.flags := rfl
@[simp] theorem State.setBus_lastPolls (b : Bus) : (s.setBus b).lastPolls = s.lastPolls := rfl
@[simp] theorem State.setBus_time (b : Bus) : (s.setBus b).time = s.time := rfl
@[simp] theorem State.setBus_raw (b : Bus) : (s.setBus b).raw = s.raw := rfl
@[simp] theorem State.setBus_tFine (b : Bus) : (s.setBus b).tFine = s.tFine := rfl
@[simp] theorem State.setBus_out (b : Bus) : (s.setBus b).out = s.out := rfl
@[simp] theorem State.setBus_cfg (b : Bus) : (s.setBus b).cfg = s.cfg := rfl
@[simp] theorem State.setBus_calbuf (b : Bus) : (s.setBus b).calbuf = s.calbuf := rfl
@[simp] theorem State.setBus_buf (b : Bus) : (s.setBus b).buf = s.buf := rfl
@[simp] theorem State.setBus_bus (b : Bus) : (s.setBus b).bus = b := rfl
@[simp] theorem State.setBus_paramSel (b : Bus) : (s.setBus b).paramSel = s.paramSel := rfl
@[simp] theorem State.setBus_port (b : Bus) : (s.setBus b).port = s.port := rfl
@[simp] theorem State.setBus_hostData (b : Bus) : (s.setBus b).hostData = s.hostData := rfl
@[simp] theorem State.setBus_params (b : Bus) : (s.setBus b).params = s.params := rfl

/-! ### setPort -/

@[simp] theorem State.setPort_g (p : List PortOp) : (s.setPort p).g = s.g := rfl
@[simp] theorem State.setPort_err (p : List PortOp) : (s.setPort p).err = s.err := rfl
@[simp] theorem State.setPort_errmask (p : List PortOp) : (s.setPort p).errmask = s.errmask := rfl
@[simp] theorem State.setPort_rtcState (p : List PortOp) : (s.setPort p).rtcState = s.rtcState := rfl
@[simp] theorem State.setPort_rtcDev (p : List PortOp) : (s.setPort p).rtcDev = s.rtcDev := rfl
@[simp] theorem State.setPort_snsState (p : List PortOp) : (s.setPort p).snsState = s.snsState := rfl
@[simp] theorem State.setPort_snsDev (p : List PortOp) : (s.setPort p).snsDev = s.snsDev := rfl
@[simp] theorem State.setPort_flags (p : List PortOp) : (s.setPort p).flags = s.flags := rfl
@[simp] theorem State.setPort_lastPolls (p : List PortOp) : (s.setPort p).lastPolls = s.lastPolls := rfl
@[simp] theorem State.setPort_time (p : List PortOp) : (s.setPort p).time = s.time := rfl
@[simp] theorem State.setPort_raw (p : List PortOp) : (s.setPort p).raw = s.raw := rfl
@[simp] theorem State.setPort_tFine (p : List PortOp) : (s.setPort p).tFine = s.tFine := rfl
@[simp] theorem State.setPort_out (p : List PortOp) : (s.setPort p).out = s.out := rfl
@[simp] theorem State.setPort_cfg (p : List PortOp) : (s.setPort p).cfg = s.cfg := rfl
@[simp] theorem State.setPort_calbuf (p : List PortOp) : (s.setPort p).calbuf = s.calbuf := rfl
@[simp] theorem State.setPort_buf (p : List PortOp) : (s.setPort p).buf = s.buf := rfl
@[simp] theorem State.setPort_bus (p : List PortOp) : (s.setPort p).bus = s.bus := rfl
@[simp] theorem State.setPort_paramSel (p : List PortOp) : (s.setPort p).paramSel = s.paramSel := rfl
@[simp] theorem State.setPort_port (p : List PortOp) : (s.setPort p).port = p := rfl
@[simp] theorem State.setPort_hostData (p : List PortOp) : (s.setPort p).hostData = s.hostData := rfl
@[simp] theorem State.setPort_params (p : List PortOp) : (s.setPort p).params = s.params := rfl

/-! ### setHostData -/

@[simp] theorem State.setHostData_g (v : Word) : (s.setHostData v).g = s.g := rfl
@[simp] theorem State.setHostData_err (v : Word) : (s.setHostData v).err = s.err := rfl
@[simp] theorem State.setHostData_errmask (v : Word) : (s.setHostData v).errmask = s.errmask := rfl
@[simp] theorem State.setHostData_rtcState (v : Word) : (s.setHostData v).rtcState = s.rtcState := rfl
@[simp] theorem State.setHostData_rtcDev (v : Word) : (s.setHostData v).rtcDev = s.rtcDev := rfl
@[simp] theorem State.setHostData_snsState (v : Word) : (s.setHostData v).snsState = s.snsState := rfl
@[simp] theorem State.setHostData_snsDev (v : Word) : (s.setHostData v).snsDev = s.snsDev := rfl
@[simp] theorem State.setHostData_flags (v : Word) : (s.setHostData v).flags = s.flags := rfl
@[simp] theorem State.setHostData_lastPolls (v : Word) : (s.setHostData v).lastPolls = s.lastPolls := rfl
@[simp] theorem State.setHostData_time (v : Word) : (s.setHostData v).time = s.time := rfl
@[simp] theorem State.setHostData_raw (v : Word) : (s.setHostData v).raw = s.raw := rfl
@[simp] theorem State.setHostData_tFine (v : Word) : (s.setHostData v).tFine = s.tFine := rfl
@[simp] theorem State.setHostData_out (v : Word) : (s.setHostData v).out = s.out := rfl
@[simp] theorem State.setHostData_cfg (v : Word) : (s.setHostData v).cfg = s.cfg := rfl
@[simp] theorem State.setHostData_calbuf (v : Word) : (s.setHostData v).calbuf = s.calbuf := rfl
@[simp] theorem State.setHostData_buf (v : Word) : (s.setHostData v).buf = s.buf := rfl
@[simp] theorem State.setHostData_bus (v : Word) : (s.setHostData v).bus = s.bus := rfl
@[simp] theorem State.setHostData_paramSel (v : Word) : (s.setHostData v).paramSel = s.paramSel := rfl
@[simp] theorem State.setHostData_port (v : Word) : (s.setHostData v).port = s.port := rfl
@[simp] theorem State.setHostData_hostData (v : Word) : (s.setHostData v).hostData = some v := rfl
@[simp] theorem State.setHostData_params (v : Word) : (s.setHostData v).params = s.params := rfl

/-! ### complete -/

@[simp] theorem State.complete_g (e : ErrCode) : (s.complete e).g = s.g := rfl
@[simp] theorem State.complete_err (e : ErrCode) : (s.complete e).err = e := rfl
@[simp] theorem State.complete_errmask (e : ErrCode) : (s.complete e).errmask = s.errmask ||| e.maskBit := rfl
@[simp] theorem State.complete_rtcState (e : ErrCode) : (s.complete e).rtcState = s.rtcState := rfl
@[simp] theorem State.complete_rtcDev (e : ErrCode) : (s.complete e).rtcDev = s.rtcDev := rfl
@[simp] theorem State.complete_snsState (e : ErrCode) : (s.complete e).snsState = s.snsState := rfl
@[simp] theorem State.complete_snsDev (e : ErrCode) : (s.complete e).snsDev = s.snsDev := rfl
@[simp] theorem State.complete_flags (e : ErrCode) : (s.complete e).flags = s.flags := rfl
@[simp] theorem State.complete_lastPolls (e : ErrCode) : (s.complete e).lastPolls = s.lastPolls := rfl
@[simp] theorem State.complete_time (e : ErrCode) : (s.complete e).time = s.time := rfl
@[simp] theorem State.complete_raw (e : ErrCode) : (s.complete e).raw = s.raw := rfl
@[simp] theorem State.complete_tFine (e : ErrCode) : (s.complete e).tFine = s.tFine := rfl
@[simp] theorem State.complete_out (e : ErrCode) : (s.complete e).out = s.out := rfl
@[simp] theorem State.complete_cfg (e : ErrCode) : (s.complete e).cfg = s.cfg := rfl
@[simp] theorem State.complete_calbuf (e : ErrCode) : (s.complete e).calbuf = s.calbuf := rfl
@[simp] theorem State.complete_buf (e : ErrCode) : (s.complete e).buf = s.buf := rfl
@[simp] theorem State.complete_bus (e : ErrCode) : (s.complete e).bus = s.bus := rfl
@[simp] theorem State.complete_paramSel (e : ErrCode) : (s.complete e).paramSel = s.paramSel := rfl
@[simp] theorem State.complete_port (e : ErrCode) : (s.complete e).port = s.port := rfl
@[simp] theorem State.complete_hostData (e : ErrCode) : (s.complete e).hostData = s.hostData := rfl
@[simp] theorem State.complete_params (e : ErrCode) : (s.complete e).params = s.params := rfl

end Sys2Proof.Machine
end

