-- ==== Sys2Proof/Laws/Bus.lean ====
section
/-! SUPPORT. What one bus transaction, and a list of one-byte writes, can do. -/

namespace Sys2Proof.Machine

open Sys2Proof.Config (Answer Request RegWrite Transaction)

/-! ### One transaction -/

/-- A transaction adds itself to the log. -/
@[simp] theorem Bus.after_log (b : Bus) (q : Request) : (b.after q).log = ⟨q, b.answer q⟩ :: b.log := by
  unfold Bus.after
  split <;> rfl

@[simp] theorem Bus.after_present (b : Bus) (q : Request) : (b.after q).present = b.present := by
  unfold Bus.after
  split <;> rfl

@[simp] theorem Bus.after_fault (b : Bus) (q : Request) : (b.after q).fault = b.fault := by
  unfold Bus.after
  split <;> rfl

/-- A transaction leaves a Simulated bus a Simulated bus. -/
theorem Bus.after_simulated {b : Bus} (h : b.kind = .simulated) (q : Request) : (b.after q).kind = .simulated := by
  unfold Bus.after
  rw [h]

/-- MAP after a transaction: a Simulated bus stores an acknowledged write; nothing else changes MAP (R71, R72). -/
theorem Bus.after_map (b : Bus) (q : Request) :
    (b.after q).map = if b.kind = .simulated then b.simStore q else b.map := by
  unfold Bus.after
  cases h : b.kind with
  | simulated => simp
  | real as => cases as <;> simp

theorem Bus.answer_simulated {b : Bus} (h : b.kind = .simulated) (q : Request) : b.answer q = b.simAnswer q := by
  unfold Bus.answer
  rw [h]

/-- A present device of a Simulated bus without FAULT acknowledges a write (R71). -/
theorem Bus.simAnswer_write {b : Bus} {a : DevAddr} (hp : a ∈ b.present) (hf : b.fault = false) (r : RegOffset)
    (bs : List Byte) : b.simAnswer (.write a r bs) = .ack [] := by
  simp [Bus.simAnswer, Request.addr, hp, hf]

/-- A present device of a Simulated bus without FAULT answers a read with the bytes of MAP (R72). -/
theorem Bus.simAnswer_read {b : Bus} {a : DevAddr} (hp : a ∈ b.present) (hf : b.fault = false) (r : RegOffset) (n : Nat) :
    b.simAnswer (.read a r n) = .ack (b.map.readBlock a r n) := by
  simp [Bus.simAnswer, Request.addr, hp, hf]

/-- While FAULT is true, or where the device is not present, the Simulated bus answers NAK (R71, R72, R74). -/
theorem Bus.simAnswer_nak {b : Bus} {q : Request} (h : b.fault = true ∨ Request.addr q ∉ b.present) :
    b.simAnswer q = .nak := by
  unfold Bus.simAnswer
  rw [if_pos]
  rcases h with h | h <;> simp [h]

/-- A transaction keeps MAP canonical. -/
theorem Bus.wf_after {b : Bus} (h : b.map.wf) (q : Request) : (b.after q).map.wf := by
  rw [Bus.after_map]
  split
  · unfold Bus.simStore
    split
    · exact Memory.wf_writeBlock h _ _ _ _
    · exact h
    · exact h
  · exact h

/-- The Simulated bus never gives a short read (R75). -/
theorem Bus.read_length_simulated {b : Bus} (h : b.kind = .simulated) {a : DevAddr} {r : RegOffset} {n : Nat} {bs : List Byte}
    (ha : b.answer (.read a r n) = .ack bs) : bs.length = n := by
  rw [Bus.answer_simulated h] at ha
  unfold Bus.simAnswer at ha
  split at ha
  · simp at ha
  · simp at ha; simp [← ha]

/-! ### MemWrite and MemRead -/

/-- All that a write transaction does: it changes the bus alone. -/
theorem memWrite_eq (s : State) (a : DevAddr) (r : RegOffset) (bs : List Byte) :
    memWrite s a r bs = (s.bus.answer (.write a r bs) != .nak, s.setBus (s.bus.after (.write a r bs))) := rfl

/-- All that a read transaction does: it changes the bus alone. -/
theorem memRead_eq (s : State) (a : DevAddr) (r : RegOffset) (n : Nat) :
    memRead s a r n = (acceptRead n (s.bus.answer (.read a r n)), s.setBus (s.bus.after (.read a r n))) := rfl

/-- A read is accepted with exactly the bytes of an acknowledged answer of the length asked for (R64). -/
theorem acceptRead_bytes {n : Nat} {ans : Answer} {bs : List Byte} :
    acceptRead n ans = .bytes bs ↔ ans = .ack bs ∧ bs.length = n := by
  cases ans with
  | nak => simp [acceptRead]
  | ack cs =>
    simp only [acceptRead]
    split <;> simp <;> (try intro h; subst h) <;> assumption

/-- An accepted read has the length asked for (R64). -/
theorem acceptRead_length {n : Nat} {ans : Answer} {bs : List Byte} (h : acceptRead n ans = .bytes bs) : bs.length = n :=
  (acceptRead_bytes.1 h).2

/-! ### One-byte writes in list order -/

/-- All that a list of one-byte writes does to the state: it changes the bus alone, by at most one transaction for each. -/
theorem writeEach_spec (a : DevAddr) (l : List RegWrite) (s : State) :
    (writeEach a l s).2 = s.setBus (writeEach a l s).2.bus ∧
      (writeEach a l s).2.bus.log.length ≤ s.bus.log.length + l.length ∧
      ((writeEach a l s).1 = true → (writeEach a l s).2.bus.log.length = s.bus.log.length + l.length) := by
  induction l generalizing s with
  | nil => exact ⟨rfl, by simp [writeEach], by simp [writeEach]⟩
  | cons w l ih =>
    obtain ⟨r, v⟩ := w
    simp only [writeEach]
    split
    · obtain ⟨h1, h2, h3⟩ := ih (memWrite s a r [v]).2
      refine ⟨?_, ?_, ?_⟩
      · rw [h1]; simp [memWrite_eq, State.setBus]
      · simp [memWrite_eq] at h2 ⊢; omega
      · intro h
        have := h3 h
        simp [memWrite_eq] at this ⊢; omega
    · refine ⟨rfl, ?_, ?_⟩
      · simp [memWrite_eq]
      · intro h; simp at h

/-- A list of one-byte writes keeps MAP canonical. -/
theorem writeEach_wf (a : DevAddr) (l : List RegWrite) (s : State) (h : s.bus.map.wf) :
    (writeEach a l s).2.bus.map.wf := by
  induction l generalizing s with
  | nil => exact h
  | cons w l ih =>
    obtain ⟨r, v⟩ := w
    have hw : (memWrite s a r [v]).2.bus.map.wf := Bus.wf_after h _
    simp only [writeEach]
    split
    · exact ih _ hw
    · exact hw

end Sys2Proof.Machine
end

