-- ==== Sys2Proof/Laws/Completion.lean ====
section
/-! SUPPORT. What completion does, and how stages follow one another. -/

namespace Sys2Proof.Machine

/-- Every completion is a next state. -/
@[simp] theorem finish_eq (r : Ended) : finish r = .next (r.1.complete r.2) := rfl

@[simp] theorem done_eq (s : State) : done s = (s, ErrCode.ok) := rfl

@[simp] theorem raise_eq (s : State) (e : ErrCode) : raise s e = (s, e) := rfl

@[simp] theorem ErrCode.maskBit_ok : ErrCode.maskBit .ok = 0 := rfl

/-- The bit of ERRMASK that a code sets (R272). -/
theorem ErrCode.getLsbD_maskBit (e : ErrCode) (k : Nat) (hk : k < 16) :
    e.maskBit.getLsbD k = (decide (e ≠ .ok) && k == e.number.toNat) := by
  cases e <;> revert k <;> decide

/-- The pseudocode that ended with ERRMASK as it was records its code as R272 says. -/
theorem recorded_complete {s t : State} (h : t.errmask = s.errmask) (e : ErrCode) : Recorded e s (t.complete e) :=
  ⟨rfl, fun k hk => by rw [State.complete_errmask, BitVec.getLsbD_or, h, ErrCode.getLsbD_maskBit e k hk]⟩

/-- Completion writes no register but ERR and ERRMASK. -/
theorem readReg_complete (s : State) (e : ErrCode) (r : Reg) (h1 : r ≠ .err) (h2 : r ≠ .errmask) :
    readReg (s.complete e) r = readReg s r := by
  cases r <;> first | rfl | contradiction

/-- The pseudocode `r` ended with code `e`, having written no register but those of `W` and nothing of its surroundings but
the bus: the command completes so. -/
theorem completes_of {e : ErrCode} {W : Reg → Prop} {s : State} {r : Ended} (hc : r.2 = e) (hm : r.1.errmask = s.errmask)
    (hw : ∀ x, x ≠ .err → x ≠ .errmask → ¬ W x → readReg r.1 x = readReg s x) (ho : SameOutside s r.1) :
    Completes e W s (r.1.complete r.2) := by
  subst hc
  refine ⟨recorded_complete hm _, fun x hx => ?_, ho⟩
  have h1 : x ≠ .err := fun h => hx (Or.inl h)
  have h2 : x ≠ .errmask := fun h => hx (Or.inr (Or.inl h))
  rw [readReg_complete _ _ _ h1 h2]
  exact hw x h1 h2 (fun h => hx (Or.inr (Or.inr h)))

/-- A command that raises a code before it writes anything. -/
theorem completes_raise (s : State) (e : ErrCode) : CompletesOffBus e noReg s (s.complete e) :=
  ⟨completes_of (r := raise s e) rfl rfl (fun _ _ _ _ => rfl) ⟨rfl, rfl, rfl⟩, rfl⟩

/-- One stage after another: the second runs on what the first left where the first raised nothing (R255). -/
theorem Ended.andThen_ok {r : Ended} (h : r.2 = .ok) (f : State → Ended) : r.andThen f = f r.1 := if_pos h

/-- One stage after another: a code ends the sequence (R255). -/
theorem Ended.andThen_raised {r : Ended} (h : r.2 ≠ .ok) (f : State → Ended) : r.andThen f = r := if_neg h

end Sys2Proof.Machine
end

