-- ==== Sys2Proof/Laws/Decode.lean ====
section
/-! SUPPORT. The opcode map read both ways, and the fields of an encoded word. -/

namespace Sys2Proof

/-- The opcode byte of a row selects that row: no two rows of R94 share a byte. -/
@[simp] theorem Opcode.ofByte_byte (op : Opcode) : Opcode.ofByte op.byte = some op := by
  cases op <;> rfl

/-- A byte selects a row only where it is the row's byte. -/
theorem Opcode.byte_of_ofByte {b : BitVec 8} {op : Opcode} (h : Opcode.ofByte b = some op) : op.byte = b := by
  simpa using List.find?_some h

/-- A byte that selects no row is the byte of no row. -/
theorem Opcode.ofByte_none {b : BitVec 8} (h : Opcode.ofByte b = none) (op : Opcode) : op.byte ≠ b := by
  rintro rfl
  simp at h

/-- A field of a word, as a number: `w[lo + n - 1 : lo]` (R9). -/
theorem toNat_field (w : Word) (lo n : Nat) : (w.extractLsb' lo n).toNat = w.toNat / 2 ^ lo % 2 ^ n := by
  simp [BitVec.extractLsb'_toNat, Nat.shiftRight_eq_div_pow]

/-- The number of an encoded word whose fields do not reach past bit 31. -/
theorem toNat_ofNat_lt (v : Nat) (h : v < 2 ^ 32) : (BitVec.ofNat 32 v).toNat = v := by
  simp; omega

/-- A field of an encoded word, as a number. -/
theorem toNat_field_ofNat (v lo n : Nat) (h : v < 2 ^ 32) :
    ((BitVec.ofNat 32 v).extractLsb' lo n).toNat = v / 2 ^ lo % 2 ^ n := by
  rw [toNat_field, toNat_ofNat_lt v h]

end Sys2Proof
end

