-- ==== Sys2Proof/Laws/Operands.lean ====
section
/-! SUPPORT. The register map: its indices, and which registers each update changes. -/

namespace Sys2Proof.Machine

/-- The register at the index of a register is that register (R21). -/
@[simp] theorem Reg.ofIndex_index (r : Reg) : Reg.ofIndex r.index = some r := by
  cases r with
  | g i => revert i; decide
  | cfgAqb i => revert i; decide
  | calbuf i => revert i; decide
  | buf i => revert i; decide
  | _ => rfl

/-- An index names a register only where it is that register's index (R21). -/
theorem Reg.index_of_ofIndex {idx : BitVec 8} {r : Reg} (h : Reg.ofIndex idx = some r) : r.index = idx := by
  have key : ∀ idx : BitVec 8, ∀ r ∈ Reg.ofIndex idx, r.index = idx := by decide +revert
  exact key idx r h

variable (s : State)

theorem readReg_setG (i : GReg) (v : Word) (r : Reg) :
    readReg (s.setG i v) r = if r = .g i then v else readReg s r := by
  cases r with
  | g j =>
    by_cases h : j = i
    · subst h; simp [readReg]
    · have : i.val ≠ j.val := fun e => h (Fin.ext e.symm)
      simp [readReg, h, this]
  | _ => rfl

/-- Storing into BUF changes the stored bytes of BUF alone. -/
theorem readReg_storeBuf (k : Nat) (bs : List Byte) (r : Reg)
    (h : ∀ i : Fin 32, r = .buf i → ¬ (k ≤ i.val ∧ i.val < k + bs.length)) :
    readReg (s.storeBuf k bs) r = readReg s r := by
  cases r with
  | buf i =>
    have := getElem_storeBytes_outside s.buf k bs i.val i.isLt (h i rfl)
    simp [readReg, this]
  | _ => rfl

/-- Storing into CALBUF changes the stored bytes of CALBUF alone. -/
theorem readReg_storeCalbuf (k : Nat) (bs : List Byte) (r : Reg)
    (h : ∀ i : Fin 64, r = .calbuf i → ¬ (k ≤ i.val ∧ i.val < k + bs.length)) :
    readReg (s.storeCalbuf k bs) r = readReg s r := by
  cases r with
  | calbuf i =>
    have := getElem_storeBytes_outside s.calbuf k bs i.val i.isLt (h i rfl)
    simp [readReg, this]
  | _ => rfl

theorem readReg_setFlags (f : Flags) (r : Reg) (h : r ≠ .flags) : readReg (s.setFlags f) r = readReg s r := by
  cases r <;> first | rfl | contradiction

theorem readReg_setTFine (v : Word) (r : Reg) (h : r ≠ .tFine) : readReg (s.setTFine v) r = readReg s r := by
  cases r <;> first | rfl | contradiction

theorem readReg_setPolls (n : BitVec 8) (r : Reg) (h : r ≠ .lastPolls) : readReg (s.setPolls n) r = readReg s r := by
  cases r <;> first | rfl | contradiction

theorem readReg_setRtc (st : RtcState) (dev : DeviceStatus) (r : Reg) (h1 : r ≠ .rtcState) (h2 : r ≠ .rtcDev) :
    readReg (s.setRtc st dev) r = readReg s r := by
  cases r <;> first | rfl | contradiction

theorem readReg_setSns (st : SnsState) (dev : DeviceStatus) (r : Reg) (h1 : r ≠ .snsState) (h2 : r ≠ .snsDev) :
    readReg (s.setSns st dev) r = readReg s r := by
  cases r <;> first | rfl | contradiction

@[simp] theorem readReg_setBus (b : Bus) (r : Reg) : readReg (s.setBus b) r = readReg s r := by
  cases r <;> rfl

@[simp] theorem readReg_setPort (p : List PortOp) (r : Reg) : readReg (s.setPort p) r = readReg s r := by
  cases r <;> rfl

@[simp] theorem readReg_setHostData (v : Word) (r : Reg) : readReg (s.setHostData v) r = readReg s r := by
  cases r <;> rfl

/-- A write by PUT or the host port leaves the state machines, the device states, ERR, LAST_POLLS, T_FINE, the outputs, the bus,
the parameters and the host side alone (R120). -/
theorem writeReg_frame (r : Reg) (v : Word) :
    (writeReg s r v).rtcState = s.rtcState ∧ (writeReg s r v).rtcDev = s.rtcDev ∧
      (writeReg s r v).snsState = s.snsState ∧ (writeReg s r v).snsDev = s.snsDev ∧ (writeReg s r v).err = s.err ∧
      (writeReg s r v).lastPolls = s.lastPolls ∧ (writeReg s r v).tFine = s.tFine ∧ (writeReg s r v).out = s.out ∧
      (writeReg s r v).bus = s.bus ∧ (writeReg s r v).paramSel = s.paramSel ∧ (writeReg s r v).port = s.port ∧
      (writeReg s r v).hostData = s.hostData := by
  cases r <;> exact ⟨rfl, rfl, rfl, rfl, rfl, rfl, rfl, rfl, rfl, rfl, rfl, rfl⟩

/-- A write to any register but ERRMASK leaves ERRMASK alone. -/
theorem writeReg_errmask (r : Reg) (v : Word) (h : r ≠ .errmask) : (writeReg s r v).errmask = s.errmask := by
  cases r <;> first | rfl | contradiction

end Sys2Proof.Machine
end

