-- ==== Sys2Proof/Laws/PerInstr.lean ====
section
/-! SUPPORT. The head of an encoded command, per constructor: its opcode byte is its row's (R94) and its format's reserved bits
are 0 (R91, R96). -/

namespace Sys2Proof.Laws.EncodingHead

/-- The encoded word of `i` has the opcode byte of its row and no reserved bit set. -/
def Statement (i : Instr) : Prop := opcodeByte (encode i) = i.opcode.byte ∧ i.opcode.format.reservedClear (encode i) = true

theorem head_none (op : Opcode) :
    opcodeByte (encodeNone op) = op.byte ∧ Format.reservedClear .none (encodeNone op) = true := by
  have h0 := op.byte.isLt
  refine ⟨BitVec.eq_of_toNat_eq ?_, beq_iff_eq.2 (BitVec.eq_of_toNat_eq ?_)⟩ <;>
    unfold encodeNone atBit <;> (try unfold opcodeByte) <;> rw [toNat_field_ofNat _ _ _ (by omega)]
  · omega
  · show _ = 0
    omega

theorem head_regImm (op : Opcode) (rd : GReg) (imm : BitVec 16) :
    opcodeByte (encodeRegImm op rd imm) = op.byte ∧ Format.reservedClear .regImm (encodeRegImm op rd imm) = true := by
  have h0 := op.byte.isLt
  have h1 := rd.isLt
  have h2 := imm.isLt
  refine ⟨BitVec.eq_of_toNat_eq ?_, beq_iff_eq.2 (BitVec.eq_of_toNat_eq ?_)⟩ <;>
    unfold encodeRegImm atBit <;> (try unfold opcodeByte) <;> rw [toNat_field_ofNat _ _ _ (by omega)]
  · omega
  · show _ = 0
    omega

theorem head_regReg (op : Opcode) (rd rs : GReg) :
    opcodeByte (encodeRegReg op rd rs) = op.byte ∧ Format.reservedClear .regReg (encodeRegReg op rd rs) = true := by
  have h0 := op.byte.isLt
  have h1 := rd.isLt
  have h2 := rs.isLt
  refine ⟨BitVec.eq_of_toNat_eq ?_, beq_iff_eq.2 (BitVec.eq_of_toNat_eq ?_)⟩ <;>
    unfold encodeRegReg atBit <;> (try unfold opcodeByte) <;> rw [toNat_field_ofNat _ _ _ (by omega)]
  · omega
  · show _ = 0
    omega

theorem head_regOnly (op : Opcode) (rd : GReg) :
    opcodeByte (encodeRegOnly op rd) = op.byte ∧ Format.reservedClear .regOnly (encodeRegOnly op rd) = true := by
  have h0 := op.byte.isLt
  have h1 := rd.isLt
  refine ⟨BitVec.eq_of_toNat_eq ?_, beq_iff_eq.2 (BitVec.eq_of_toNat_eq ?_)⟩ <;>
    unfold encodeRegOnly atBit <;> (try unfold opcodeByte) <;> rw [toNat_field_ofNat _ _ _ (by omega)]
  · omega
  · show _ = 0
    omega

theorem head_regIdx (op : Opcode) (r : GReg) (idx : BitVec 8) :
    opcodeByte (encodeRegIdx op r idx) = op.byte ∧ Format.reservedClear .regIdx (encodeRegIdx op r idx) = true := by
  have h0 := op.byte.isLt
  have h1 := r.isLt
  have h2 := idx.isLt
  refine ⟨BitVec.eq_of_toNat_eq ?_, beq_iff_eq.2 (BitVec.eq_of_toNat_eq ?_)⟩ <;>
    unfold encodeRegIdx atBit <;> (try unfold opcodeByte) <;> rw [toNat_field_ofNat _ _ _ (by omega)]
  · omega
  · show _ = 0
    omega

theorem head_bus (op : Opcode) (addr : DevAddr) (reg : RegOffset) (len : Nat) :
    opcodeByte (encodeBus op addr reg len) = op.byte ∧ Format.reservedClear .bus (encodeBus op addr reg len) = true := by
  have h0 := op.byte.isLt
  have h1 := addr.isLt
  have h2 := reg.isLt
  refine ⟨BitVec.eq_of_toNat_eq ?_, beq_iff_eq.2 (BitVec.eq_of_toNat_eq ?_)⟩ <;>
    unfold encodeBus atBit <;> (try unfold opcodeByte) <;> rw [toNat_field_ofNat _ _ _ (by omega)]
  · omega
  · show _ = 0
    omega

theorem nop : Statement .nop := head_none .nop

theorem ldi (rd : GReg) (imm : BitVec 16) : Statement (.ldi rd imm) := head_regImm .ldi rd imm

theorem lui (rd : GReg) (imm : BitVec 16) : Statement (.lui rd imm) := head_regImm .lui rd imm

theorem get (rd : GReg) (idx : BitVec 8) : Statement (.get rd idx) := head_regIdx .get rd idx

theorem put (idx : BitVec 8) (rs : GReg) : Statement (.put idx rs) := head_regIdx .put rs idx

theorem bcdenc (rd : GReg) (rs : GReg) : Statement (.bcdenc rd rs) := head_regReg .bcdenc rd rs

theorem bcddec (rd : GReg) (rs : GReg) : Statement (.bcddec rd rs) := head_regReg .bcddec rd rs

theorem wday (rd : GReg) : Statement (.wday rd) := head_regOnly .wday rd

theorem tvalid (rd : GReg) : Statement (.tvalid rd) := head_regOnly .tvalid rd

theorem tpack : Statement .tpack := head_none .tpack

theorem tunpack : Statement .tunpack := head_none .tunpack

theorem rtcrd : Statement .rtcrd := head_none .rtcrd

theorem rtcset : Statement .rtcset := head_none .rtcset

theorem snsid : Statement .snsid := head_none .snsid

theorem snsrst : Statement .snsrst := head_none .snsrst

theorem snscfg : Statement .snscfg := head_none .snscfg

theorem snscal : Statement .snscal := head_none .snscal

theorem snsacq : Statement .snsacq := head_none .snsacq

theorem cmpt : Statement .cmpt := head_none .cmpt

theorem cmpp : Statement .cmpp := head_none .cmpp

theorem cmph : Statement .cmph := head_none .cmph

theorem cmpg : Statement .cmpg := head_none .cmpg

theorem cmpaq : Statement .cmpaq := head_none .cmpaq

theorem cmpall : Statement .cmpall := head_none .cmpall

theorem i2cwr (addr : DevAddr) (reg : RegOffset) (len : Nat) : Statement (.i2cwr addr reg len) := head_bus .i2cwr addr reg len

theorem i2crd (addr : DevAddr) (reg : RegOffset) (len : Nat) : Statement (.i2crd addr reg len) := head_bus .i2crd addr reg len

end Sys2Proof.Laws.EncodingHead
end

