-- ==== Sys2Proof/Laws/Sequencers.lean ====
section
/-! SUPPORT. What the sequencers' shared operations can do: the bounded poll, and the bus failure exits. -/

namespace Sys2Proof.Machine

open Sys2Proof.Config (Answer RegWrite Request Transaction)

/-- All that `k` bounded polls do: they make some number `n ≤ k` of status reads, add `n` to LAST_POLLS, and change nothing
else but the bus; a timeout has made all `k`, any other end at least one (R213, R214). -/
theorem pollReady_spec (k : Nat) (s : State) :
    ∃ n, n ≤ k ∧ (pollReady k s).2 = (s.setBus (pollReady k s).2.bus).setPolls (s.lastPolls + BitVec.ofNat 8 n) ∧
      (pollReady k s).2.bus.log.length = s.bus.log.length + n ∧
      ((pollReady k s).1 = .timeout → n = k) ∧ ((pollReady k s).1 ≠ .timeout → 1 ≤ n) := by
  induction k generalizing s with
  | zero => exact ⟨0, Nat.le_refl 0, by simp [pollReady, State.setBus, State.setPolls], rfl, fun _ => rfl, by simp [pollReady]⟩
  | succ k ih =>
    have one : ∀ e : PollEnd, e ≠ .timeout →
        ∃ n, n ≤ k + 1 ∧
          (memRead s s.params.snsAddr s.params.statusReg 1).2.countPoll =
            (s.setBus (memRead s s.params.snsAddr s.params.statusReg 1).2.countPoll.bus).setPolls
              (s.lastPolls + BitVec.ofNat 8 n) ∧
          (memRead s s.params.snsAddr s.params.statusReg 1).2.countPoll.bus.log.length = s.bus.log.length + n ∧
          (e = .timeout → n = k + 1) ∧ (e ≠ .timeout → 1 ≤ n) :=
      fun e he => ⟨1, by omega, by simp [memRead_eq, State.countPoll], by simp [memRead_eq, State.countPoll],
        fun h => absurd h he, fun _ => Nat.le_refl 1⟩
    simp only [pollReady]
    split
    · split
      · exact one .ready (by decide)
      · obtain ⟨n, hn, hs, hl, ht, hr⟩ := ih (memRead s s.params.snsAddr s.params.statusReg 1).2.countPoll
        refine ⟨n + 1, by omega, ?_, ?_, fun h => by rw [ht h], fun _ => by omega⟩
        · rw [hs]
          have : s.lastPolls + 1#8 + BitVec.ofNat 8 n = s.lastPolls + BitVec.ofNat 8 (n + 1) := by
            apply BitVec.eq_of_toNat_eq; simp; omega
          simp [memRead_eq, State.countPoll, State.setPolls, State.setBus, this]
        · rw [hl]; simp [memRead_eq, State.countPoll]; omega
    · exact one .busFailure (by decide)
    · exact one .busFailure (by decide)

/-- No transaction leaves the bus as it is. -/
@[simp] theorem Bus.afterAll_nil (b : Bus) : b.afterAll [] = b := rfl

@[simp] theorem Bus.afterAll_cons (b : Bus) (x : Transaction) (made : List Transaction) :
    b.afterAll (x :: made) = (b.after x.request).afterAll made := rfl

@[simp] theorem Bus.afterAll_append (b : Bus) (made more : List Transaction) :
    b.afterAll (made ++ more) = (b.afterAll made).afterAll more := List.foldl_append ..

/-- All that a list of one-byte writes does: some transactions in list order up to the first NAK, and nothing else but their
effect on the bus; all of the list where it reports success, a last NAK where it does not (R201, R213). -/
theorem writeEach_made (a : DevAddr) (l : List RegWrite) (s : State) :
    ∃ made, (writeEach a l s).2 = s.setBus (s.bus.afterAll made) ∧
      (writeEach a l s).2.bus.log = made.reverse ++ s.bus.log ∧ WritesInOrder a l made ∧
      ((writeEach a l s).1 = true → made.length = l.length ∧ ∀ x ∈ made, x.answer ≠ .nak) ∧
      ((writeEach a l s).1 = false → made.length ≤ l.length ∧ ∃ x, made.getLast? = some x ∧ x.answer = .nak) := by
  induction l generalizing s with
  | nil => exact ⟨[], by simp [writeEach, State.setBus], by simp [writeEach], by simp [WritesInOrder], by simp, by simp [writeEach]⟩
  | cons w l ih =>
    obtain ⟨r, v⟩ := w
    simp only [writeEach]
    by_cases h : s.bus.answer (.write a r [v]) = .nak
    · refine ⟨[⟨.write a r [v], .nak⟩], ?_, ?_, by simp [WritesInOrder], ?_, ?_⟩ <;> simp [memWrite_eq, h]
    · obtain ⟨made, h0, h1, ⟨h2, h2'⟩, h3, h4⟩ := ih (memWrite s a r [v]).2
      have hf : (memWrite s a r [v]).1 = true := by simp [memWrite_eq, h]
      simp only [hf, if_true]
      refine ⟨⟨.write a r [v], s.bus.answer (.write a r [v])⟩ :: made, ?_, ?_, ⟨by simp [h2], fun x hx => ?_⟩, fun hh => ?_,
        fun hh => ?_⟩
      · rw [h0]; simp [memWrite_eq, State.setBus]
      · rw [h1]; simp [memWrite_eq]
      · cases made with
        | nil => simp at hx
        | cons y m =>
          simp only [List.dropLast_cons_cons, List.mem_cons] at hx
          rcases hx with rfl | hx
          · exact h
          · exact h2' x hx
      · obtain ⟨e1, e2⟩ := h3 hh
        exact ⟨by simp [e1], fun x hx => by rcases List.mem_cons.1 hx with rfl | hx <;> [exact h; exact e2 x hx]⟩
      · obtain ⟨e1, x, e2, e3⟩ := h4 hh
        refine ⟨by simp [e1], x, ?_, e3⟩
        cases made with
        | nil => simp at e2
        | cons y m => simpa using e2

/-- The bus after any number of the polls of `pollReady` is the bus after the transactions that its log gained. -/
theorem pollReady_made (k : Nat) (s : State) :
    ∃ polls, (pollReady k s).2.bus.log = polls.reverse ++ s.bus.log ∧ (pollReady k s).2.bus = s.bus.afterAll polls ∧
      ∀ x ∈ polls, x.request = .read s.params.snsAddr s.params.statusReg 1 := by
  induction k generalizing s with
  | zero => exact ⟨[], by simp [pollReady], rfl, by simp⟩
  | succ k ih =>
    let q := Request.read s.params.snsAddr s.params.statusReg 1
    have one : ∃ polls : List Transaction,
        (memRead s s.params.snsAddr s.params.statusReg 1).2.countPoll.bus.log = polls.reverse ++ s.bus.log ∧
          (memRead s s.params.snsAddr s.params.statusReg 1).2.countPoll.bus = s.bus.afterAll polls ∧
          ∀ x ∈ polls, x.request = .read s.params.snsAddr s.params.statusReg 1 :=
      ⟨[⟨q, s.bus.answer q⟩], by simp [memRead_eq, State.countPoll, q], by simp [memRead_eq, State.countPoll, q], by simp [q]⟩
    simp only [pollReady]
    split
    · split
      · exact one
      · obtain ⟨polls, h1, h2, h3⟩ := ih (memRead s s.params.snsAddr s.params.statusReg 1).2.countPoll
        refine ⟨⟨q, s.bus.answer q⟩ :: polls, ?_, ?_, fun x hx => ?_⟩
        · rw [h1]; simp [memRead_eq, State.countPoll, q]
        · rw [h2]; simp [memRead_eq, State.countPoll, q]
        · rcases List.mem_cons.1 hx with rfl | hx
          · rfl
          · simpa [memRead_eq, State.countPoll] using h3 x hx
    · exact one
    · exact one

/-- The polls keep MAP canonical. -/
theorem pollReady_wf (k : Nat) (s : State) (h : s.bus.map.wf) : (pollReady k s).2.bus.map.wf := by
  induction k generalizing s with
  | zero => exact h
  | succ k ih =>
    have hw : (memRead s s.params.snsAddr s.params.statusReg 1).2.countPoll.bus.map.wf := Bus.wf_after h _
    simp only [pollReady]
    split
    · split
      · exact hw
      · exact ih _ hw
    · exact hw
    · exact hw

/-- The bus failure exit of the RTC sequencer writes RTC_STATE and RTC_DEV and raises BusError (R176). -/
@[simp] theorem rtcBusFailure_eq (s : State) : rtcBusFailure s = (s.setRtc .unchecked .notResponding, ErrCode.busError) := rfl

/-- The failure exit of the sensor sequencer writes SNS_STATE and SNS_DEV and raises its code (R191). -/
@[simp] theorem snsFail_eq (s : State) (dev : DeviceStatus) (e : ErrCode) : snsFail s dev e = (s.setSns .halted dev, e) := rfl

@[simp] theorem snsBusFailure_eq (s : State) :
    snsBusFailure s = (s.setSns .halted .notResponding, ErrCode.busError) := rfl

end Sys2Proof.Machine
end

