-- ==== Sys2Proof/Tests/Slice0.lean ====
section
/-! SUPPORT. The model's own tests: the ill-formed terms WellFormed refuses, a word of every command decoded, one step of every
command on vectors of 95_test_vectors.md (each test names its vector), and for every statement with hypotheses a state and
operands that meet them. -/

namespace Sys2Proof.Tests

open Sys2Proof.Machine
open Sys2Proof.Config (Answer Params ParamSel Request Transaction)

/-! ### Helpers -/

/-- The state a command word leaves when the host issues it next. -/
def ran (w : Nat) (s : State) : Option State :=
  match step (s.withFetchWord 32 w) with
  | .next t => some t
  | .fault _ => none
  | .refused _ => none

/-- The code a command word completes with, and some registers after it. -/
def result (w : Nat) (s : State) (rs : List Reg) : Option (Nat × List Nat) :=
  (ran w s).map (fun t => (t.err.number.toNat, rs.map (fun r => (readReg t r).toNat)))

/-- A MAP with some device registers seeded. -/
def seeded : List (DevAddr × RegOffset × Byte) → Memory
  | [] => []
  | (a, r, b) :: l => (seeded l).write (busKey a r 0) b

/-- A Simulated bus. -/
def sim (present : List DevAddr) (cells : List (DevAddr × RegOffset × Byte)) : Bus :=
  { Bus.empty with present := present, map := seeded cells }

/-- A block after reset under TCFG, on a Simulated bus. -/
def onSim (present : List DevAddr) (cells : List (DevAddr × RegOffset × Byte)) : State :=
  State.resetOn .tcfg (sim present cells)

/-- A block after reset under TCFG, on a Real bus with its next answers. -/
def onReal (answers : List Answer) : State := State.resetOn .tcfg { Bus.empty with kind := .real answers }

/-- The block after reset with a value in one general register. -/
def withG (r : GReg) (v : Word) : State := State.reset.setG r v

/-- A staged time. -/
def time (y m d hh mm ss wd : Nat) : RtcTime :=
  { year := word y, month := word m, day := word d, hour := word hh, minute := word mm, second := word ss, weekday := word wd }

/-- The block after reset with a staged time. -/
def withTime (t : RtcTime) : State := State.reset.setTime t

/-- The seven time registers of the RTC. -/
def rtcCells (b0 b1 b2 b3 b4 b5 b6 : Byte) : List (DevAddr × RegOffset × Byte) :=
  [(0x6F, 0, b0), (0x6F, 1, b1), (0x6F, 2, b2), (0x6F, 3, b3), (0x6F, 4, b4), (0x6F, 5, b5), (0x6F, 6, b6)]

/-- A sensor that answers, with the identity byte and the status byte of SNS-FIX, and five of its sample bytes. -/
def sensor : List (DevAddr × RegOffset × Byte) :=
  [(0x77, 0xD0, 0x61), (0x77, 0x1D, 0x80), (0x77, 0x1F, 0x55), (0x77, 0x20, 0x73), (0x77, 0x22, 0x7A), (0x77, 0x23, 0x12),
   (0x77, 0x2D, 0x15)]

/-- A block in a state of the sensor machine, on a Simulated bus with that sensor. -/
def sensorIn (st : SnsState) (dev : DeviceStatus) : State := (onSim [0x77] sensor).setSns st dev

/-- The coefficient bytes of the fixture FIX. -/
def fixCal : List Byte :=
  [0xAE, 0x65, 0xFD, 0x66, 0x03, 0x80, 0x8D, 0xFF, 0xD6, 0x58, 0x99, 0x1C, 0xC2, 0xFF, 0x1E, 0x1F] ++
  [0xFE, 0xFF, 0x7E, 0xF4, 0x1E, 0xFB, 0x02, 0x0C, 0x04, 0x00, 0x2D, 0x14, 0x78, 0x9C, 0x00]

/-- The state FIX-H: the fixture's coefficients and sample, both marked valid. -/
def fixH : State :=
  (((State.reset.storeCalbuf 0 fixCal).setRaw { t := 500000, p := 350000, h := 22000, g := 500, gr := 5, hs := 1 })).setFlags
    { Flags.clear with calValid := true, rawValid := true }

/-- FIX-H after CMPT (V-CMP-1). -/
def fixT : State :=
  ((fixH.setTFine 134418).setOut { fixH.out with t := 2625 }).setFlags { fixH.flags with tDone := true }

/-- FIX-H with its four outputs computed and three bucket boundaries (V-CMP-5). -/
def fixG : State :=
  ((fixT.setOut { t := 2625, p := 100766, h := 52689, g := 250528, aq := 0 }).setFlags
    { fixT.flags with pDone := true, hDone := true, gDone := true }).setCfg
    { fixT.cfg with aqb := #v[50000, 150000, 300000, 0, 0, 0, 0], aqn := 3 }

/-! ### Well-formedness and decoding -/

/-- A byte count that does not fit its 6-bit field has no encoding (R91). -/
theorem test_wellFormed_refuses_long_counts :
    (Instr.i2cwr 0x77 0 64).wellFormed = false ∧ (Instr.i2crd 0x77 0 64).wellFormed = false ∧
      (Instr.i2cwr 0x77 0 63).wellFormed = true := by decide

/-- The words of R100 and of 95_test_vectors.md sections 3 and 4, one of every command. -/
theorem test_decode_block_registers :
    decode 0x01000000 = .ok .nop ∧ decode 0x02E01234 = .ok (.ldi 7 0x1234) ∧ decode 0x03E0ABCD = .ok (.lui 7 0xABCD) ∧
      decode 0x04C00008 = .ok (.get 6 0x08) ∧ decode 0x05C00041 = .ok (.put 0x41 6) := by decide

theorem test_decode_bcd :
    decode 0x10440000 = .ok (.bcdenc 2 1) ∧ decode 0x11680000 = .ok (.bcddec 3 2) ∧ decode 0x12200000 = .ok (.wday 1) ∧
      decode 0x13200000 = .ok (.tvalid 1) ∧ decode 0x14000000 = .ok .tpack ∧ decode 0x15000000 = .ok .tunpack := by decide

theorem test_decode_rtc_and_sensor :
    decode 0x20000000 = .ok .rtcrd ∧ decode 0x21000000 = .ok .rtcset ∧ decode 0x30000000 = .ok .snsid ∧
      decode 0x31000000 = .ok .snsrst ∧ decode 0x32000000 = .ok .snscfg ∧ decode 0x33000000 = .ok .snscal ∧
      decode 0x34000000 = .ok .snsacq := by decide

theorem test_decode_compensation :
    decode 0x40000000 = .ok .cmpt ∧ decode 0x41000000 = .ok .cmpp ∧ decode 0x42000000 = .ok .cmph ∧
      decode 0x43000000 = .ok .cmpg ∧ decode 0x44000000 = .ok .cmpaq ∧ decode 0x45000000 = .ok .cmpall := by decide

theorem test_decode_bus :
    decode 0x50EE20E0 = .ok (.i2cwr 0x77 0xE0 32) ∧ decode 0x51DE0700 = .ok (.i2crd 0x6F 0 7) := by decide

/-- V-EXC-2 to V-EXC-10, V-BUS-7, V-BUS-8: the opcode comes first, then the reserved bits (R95). -/
theorem test_decode_illegal :
    decode 0xFFFFFFFF = .error (.unassignedOpcode 0xFF) ∧ decode 0x06000000 = .error (.unassignedOpcode 0x06) ∧
      decode 0x01000001 = .error (.reservedBitSet .nop) ∧ decode 0x0230FFFF = .error (.reservedBitSet .ldi) ∧
      decode 0x10440001 = .error (.reservedBitSet .bcdenc) ∧ decode 0x12200001 = .error (.reservedBitSet .wday) ∧
      decode 0x04C00108 = .error (.reservedBitSet .get) ∧ decode 0x50EF01E0 = .error (.reservedBitSet .i2cwr) ∧
      decode 0x5000C100 = .error (.reservedBitSet .i2cwr) := by decide

theorem test_decodeTableWord :
    decodeTableWord 32 0x51DE0700 = some (.i2crd 0x6F 0 7) ∧ decodeTableWord 32 0x52000000 = none := by decide

/-- Lines of R98 and R99 and the commands they stand for; the PUT, LI and SETF lines are those of V-REG-5, P3 and R99. -/
theorem test_assemble :
    assemble "PUT CFG_MAXRETRY, G6" = some [.put 0x41 6] ∧ assemble "I2CWR 0x77, 0xE0, 1" = some [.i2cwr 0x77 0xE0 1] ∧
      assemble "LI G0, 150000" = some [.ldi 0 0x49F0, .lui 0 2] ∧
      assemble "SETF CFG_AQB2, 7, G3" = some [.ldi 3 7, .put 0x4A 3] ∧ assemble "LDI G8, 1" = none := by decide

/-! ### One step of every command -/

theorem test_illegal_word : result 0x00000000 State.reset [.err, .errmask, .g 1] = some (6, [6, 0x40, 0]) := by decide

theorem test_nop : result 0x01000000 (State.reset.complete .argRange) [.err, .errmask] = some (0, [0, 0x20]) := by decide

theorem test_ldi : result 0x0220003B State.reset [.g 1, .g 2] = some (0, [59, 0]) := by decide

theorem test_lui_keeps_low_half : result 0x03E0ABCD (withG 7 0x1234) [.g 7] = some (0, [0xABCD1234]) := by decide

theorem test_get_err_before_completion :
    result 0x04C00008 (State.reset.complete .argRange) [.g 6, .err] = some (0, [5, 0]) := by decide

theorem test_get_unassigned : result 0x04800017 State.reset [.g 4, .errmask] = some (5, [0, 0x20]) := by decide

theorem test_put_maxretry_zero : result 0x05C00041 State.reset [.cfgMaxRetry] = some (0, [1]) := by decide

theorem test_put_errmask_clears :
    result 0x05400009 ((withG 2 0x20).setErrmask 0x22) [.errmask, .err] = some (0, [0x02, 0]) := by decide

theorem test_bcdenc : result 0x10440000 (withG 1 59) [.g 2] = some (0, [0x59]) := by decide

theorem test_bcdenc_100 : result 0x10440000 (withG 1 100) [.g 2] = some (5, [0]) := by decide

theorem test_bcddec_malformed : result 0x11000000 (withG 0 0x1A) [.g 0] = some (0, [20]) := by decide

theorem test_bcddec_0x100 : result 0x11440000 (withG 1 0x100) [.g 2] = some (5, [0]) := by decide

theorem test_wday : result 0x12200000 (withTime (time 2024 2 29 0 0 0 0)) [.g 1] = some (0, [3]) := by decide

theorem test_wday_2100 : result 0x12200000 ((withTime (time 2100 1 1 0 0 0 0)).setG 1 0xEE) [.g 1] = some (5, [0xEE]) := by
  decide

theorem test_tvalid_at_floor : result 0x13200000 (withTime (time 2024 1 1 0 0 0 9)) [.g 1] = some (0, [1]) := by decide

theorem test_tvalid_below_floor : result 0x13200000 (withTime (time 2023 12 31 23 59 59 9)) [.g 1] = some (0, [0]) := by
  decide

theorem test_tpack :
    result 0x14000000 (withTime (time 2024 2 29 12 45 30 3)) [.buf 0, .buf 1, .buf 2, .buf 3, .buf 4, .buf 5, .buf 6, .buf 7] =
      some (0, [0x30, 0x45, 0x12, 0x03, 0x29, 0x02, 0x24, 0]) := by decide

theorem test_tunpack :
    result 0x15000000 (State.reset.storeBuf 0 [0x7F, 0x59, 0x23, 0x06, 0x31, 0x12, 0x99])
        [.timeSec, .timeMin, .timeHour, .timeWday, .timeDay, .timeMonth, .timeYear] =
      some (0, [85, 59, 23, 6, 31, 12, 2099]) := by decide

theorem test_rtcrd_valid :
    result 0x20000000 (onSim [0x6F] (rtcCells 0x1A 0 0 0 1 1 0x24)) [.timeSec, .timeYear, .rtcState, .rtcDev, .buf 0] =
      some (0, [20, 2024, 1, 1, 0x1A]) := by decide

theorem test_rtcrd_absent :
    result 0x20000000 (onSim [] []) [.rtcState, .rtcDev, .errmask, .timeYear] = some (1, [0, 2, 2, 0]) := by decide

/-- V-RTC-12. -/
theorem test_rtcset_differs :
    result 0x21000000
        (((onReal [.ack [], .ack [0x31, 0x45, 0x12, 0x03, 0x29, 0x02, 0x24]]).setTime (time 2024 2 29 12 45 30 0)).setRtc
          .invalid .ready)
        [.rtcState, .rtcDev, .timeWday, .buf 0, .buf 8] = some (3, [2, 4, 3, 0x30, 0x31]) := by decide

/-- V-RTC-6. -/
theorem test_rtcset_guard_first :
    result 0x21000000 ((withTime (time 2024 13 1 0 0 0 0)).setRtc .valid .ready) [.rtcState] = some (7, [1]) := by decide

theorem test_snsid :
    result 0x30000000 (onSim [0x77] sensor) [.buf 0, .snsState, .snsDev] = some (0, [0x61, 1, 0]) := by decide

theorem test_snsid_mismatch :
    result 0x30000000 (onSim [0x77] [(0x77, 0xD0, 0x60)]) [.buf 0, .snsState, .snsDev] = some (2, [0x60, 5, 3]) := by decide

/-- V-SNS-6, on a bus without the sensor. -/
theorem test_snsrst_clears_flags_first :
    result 0x31000000 (((onSim [] []).setSns .identityChecked .uninitialized).setFlags (Flags.ofWrite 3))
        [.flags, .snsState, .snsDev] = some (1, [0, 5, 2]) := by decide

theorem test_snscfg :
    (ran 0x32000000 (sensorIn .reset .uninitialized)).map (fun t => (t.snsState, t.deviceByte 0x77 0x71, t.bus.log.length)) =
      some (.configured, 0x20, 6) := by decide

theorem test_snscal_short :
    result 0x33000000 (((onReal [.ack (List.replicate 30 1)]).setSns .configured .uninitialized).setFlags (Flags.ofWrite 1))
        [.calbuf 0, .flags, .snsState, .snsDev] = some (3, [0, 0, 5, 4]) := by decide

theorem test_snsacq :
    result 0x34000000 (sensorIn .ready .ready) [.rawT, .rawP, .rawGr, .rawHs, .lastPolls, .flags] =
      some (0, [500000, 350000, 5, 1, 1, 2]) := by decide

/-- V-SNS-9. -/
theorem test_snsacq_times_out :
    result 0x34000000 (((onSim [0x77] []).setSns .ready .ready).setCfg { State.reset.cfg with maxRetry := 1 })
        [.lastPolls, .snsState, .snsDev] = some (4, [1, 5, 2]) := by decide

theorem test_cmpt : result 0x40000000 fixH [.tFine, .outT, .flags] = some (0, [134418, 2625, 7]) := by decide +kernel

/-- V-CMP-13. -/
theorem test_cmpt_negative :
    result 0x40000000 (fixH.setRaw { fixH.raw with t := 0 }) [.tFine, .outT] = some (0, [0xFFF5C7EF, 0xFFFFCCE8]) := by decide +kernel

theorem test_cmpp : result 0x41000000 fixT [.outP, .flags] = some (0, [100766, 0x0F]) := by decide +kernel

theorem test_cmph : result 0x42000000 fixT [.outH, .flags] = some (0, [52689, 0x17]) := by decide +kernel

theorem test_cmpg : result 0x43000000 fixH [.outG, .flags] = some (0, [250528, 0x23]) := by decide +kernel

theorem test_cmpaq : result 0x44000000 fixG [.outAq, .flags] = some (0, [2, 0x7F]) := by decide

theorem test_cmpall :
    result 0x45000000 fixH [.tFine, .outT, .outP, .outH, .outG, .outAq, .flags] =
      some (0, [134418, 2625, 100766, 52689, 250528, 0, 0x7F]) := by decide +kernel

/-- V-CMP-17. -/
theorem test_cmpall_stops_at_pressure :
    result 0x45000000 (fixH.storeCalbuf 5 [0, 0]) [.tFine, .outP, .outG, .flags] = some (8, [134418, 0, 0, 7]) := by decide +kernel

theorem test_i2cwr :
    (ran 0x50EE01FF ((onSim [0x77] []).storeBuf 0 [0xB6, 0x11])).map (fun t => (t.err, t.bus.map)) =
      some (.ok, [(0x77FF, 0xB6)]) := by decide

theorem test_i2crd_fault :
    (ran 0x51DE0700 ((onSim [0x6F] (rtcCells 0x30 0x45 0x12 3 0x29 2 0x24)).setBus
        { sim [0x6F] (rtcCells 0x30 0x45 0x12 3 0x29 2 0x24) with fault := true })).map (fun t => (t.err, t.buf[0])) =
      some (.busError, 0) := by decide

/-- V-REG-19, V-REG-17 and V-RST-1 through the host register port (R44). -/
theorem test_host_port :
    (({ State.reset with flags := Flags.ofWrite 3 }).hostWrite 0x20 1).raw.t = 1 ∧
      (State.reset.hostWrite 0x30 7) = State.reset ∧ State.reset.hostRead 0x17 = 0 ∧ State.reset.hostRead 0x40 = 2024 := by
  decide

/-! ### Witnesses: states and operands that meet the hypotheses of the statements -/

/-- The read that RTCRD makes under TCFG. -/
def timeRead : Request := .read 0x6F 0 7

/-- A bus answer that is no acknowledged block of `n` bytes. -/
def refuses (n : Nat) : Answer → Bool
  | .nak => true
  | .ack bs => bs.length != n

theorem not_ofFn_of_refuses {n : Nat} {a : Answer} (h : refuses n a = true) (c : Fin n → Byte) : a ≠ .ack (List.ofFn c) := by
  rintro rfl
  simp [refuses] at h

theorem all_of {α : Type} {l : List α} {P : α → Prop} [DecidablePred P] (h : l.all (fun x => decide (P x)) = true) :
    ∀ x ∈ l, P x := fun x hx => of_decide_eq_true (List.all_eq_true.1 h x hx)

theorem witness_DecodeInvertsEncode :
    (Instr.i2cwr 127 255 63).wellFormed = true ∧ (Instr.i2crd 0 0 0).wellFormed = true := by decide

theorem witness_EncodeInvertsDecode : decode 0x50EE01E0 = .ok (.i2cwr 0x77 0xE0 1) := by decide

/-- Both ways of being illegal: an opcode byte between two rows, and the highest reserved bit of a row's format. -/
theorem witness_IllegalWordsChangeOnlyErrors :
    (State.reset.setPort [.issue 0x52000000]).port = .issue 0x52000000 :: [] ∧ illegalWord 0x52000000 ∧
      illegalWord 0x0230FFFF ∧ illegalWord 0x04C00108 :=
  ⟨rfl, .inl (fun op => by cases op <;> decide), .inr ⟨.ldi, by decide, by decide⟩, .inr ⟨.get, by decide, by decide⟩⟩

theorem witness_StepRunsTheDecodedCommand :
    (State.reset.setPort [.issue 0x0220003B, .reset]).port = .issue 0x0220003B :: [.reset] ∧
      decode 0x0220003B = .ok (.ldi 1 59) ∧ (Instr.i2cwr 127 255 63).wellFormed = true := ⟨rfl, by decide, by decide⟩

theorem witness_EveryStepGoesOn :
    State.reset.port = [] ∧ (State.reset.setPort [.read 0]).port = .read 0 :: [] ∧
      ∃ t, step (State.reset.setPort [.read 0]) = .next t := ⟨rfl, rfl, _, rfl⟩

theorem witness_CompletionRecordsTheCode : (∀ rs, Instr.nop ≠ .put 0x09 rs) ∧ ∀ rs, Instr.put 0x0A 0 ≠ .put 0x09 rs :=
  ⟨fun _ h => (nomatch h), fun _ h => by injection h with h _; exact absurd h (by decide)⟩

/-- The last register of the map and the index after it; the read-only index next to the unassigned ones, and the last index of
the TIME registers with its neighbour. -/
theorem witness_HostPortReadsAndWrites :
    (State.reset.setPort [.read 0xDF]).port = .read 0xDF :: [] ∧ Reg.index (.buf 31) = 0xDF ∧ ¬ assignedIndex 0xE0 ∧
      (State.reset.setPort [.write 0x34 1]).port = .write 0x34 1 :: [] ∧ readOnlyIndex 0x34 ∧ ¬ assignedIndex 0x35 ∧
      assignedIndex 0x16 ∧ ¬ readOnlyIndex 0x16 ∧ ¬ assignedIndex 0x17 := by
  unfold assignedIndex readOnlyIndex
  exact ⟨rfl, rfl, by decide, rfl, by decide, by decide, by decide, by decide, by decide⟩

theorem witness_ResetSetsEveryRegister : (fixG.setPort [.reset, .read 0]).port = .reset :: [.read 0] := rfl

theorem witness_HarnessChangesOnlyTheBus :
    (State.reset.setPort [.harness (.seed 127 255 0)]).port = .harness (.seed 127 255 0) :: [] ∧
      (State.reset.setPort [.harness (.setPresent [0x77])]).port = .harness (.setPresent [0x77]) :: [] ∧
      (State.reset.setPort [.harness (.setFault true)]).port = .harness (.setFault true) :: [] ∧
      (State.reset.setPort [.harness (.answerNext [.nak])]).port = .harness (.answerNext [.nak]) :: [] ∧
      (seeded sensor).wf := ⟨rfl, rfl, rfl, rfl, by decide⟩

theorem witness_NopSetsErrToOk :
    (0x01000001 : Word).extractLsb' 24 8 = 0x01 ∧ (0x01000001 : Word) ≠ 0x01000000 ∧
      (0x01FFFFFF : Word).extractLsb' 24 8 = 0x01 := by decide

/-- The unassigned indices at every edge of the map. -/
theorem witness_GetCopiesAnyRegister :
    ∀ idx ∈ [(0x17 : BitVec 8), 0x1F, 0x26, 0x27, 0x29, 0x2F, 0x35, 0x3F, 0x50, 0x7F, 0xE0, 0xFF], ¬ assignedIndex idx := by
  unfold assignedIndex
  exact all_of (by decide)

theorem witness_PutStoresTheLegalBits :
    (∀ r ∈ [Reg.g 0, .g 7, .timeSec, .timeYear, .cfgEpoch, .cfgOsT, .cfgHeatDur, .buf 0, .buf 31], plainIndex r.index) ∧
      readReg (withG 2 0x1FF) (.g 2) &&& 0xFF ≠ 0 ∧ readReg (withG 2 0x100) (.g 2) &&& 0xFF = 0 := by
  unfold plainIndex
  decide

theorem witness_PutMakesResultsStale :
    (∀ r ∈ [Reg.rawT, .rawHs, .calbuf 0, .calbuf 63], stalingIndex r.index) ∧
      ∀ r ∈ [Reg.cfgAqb 0, .cfgAqb 6, .cfgAqn], bucketIndex r.index := by
  unfold stalingIndex bucketIndex
  decide

theorem witness_PutRefusesReadOnlyAndUnassigned :
    (∀ idx ∈ [(0x08 : BitVec 8), 0x0A, 0x0D, 0x0F, 0x28, 0x30, 0x34], readOnlyIndex idx) ∧
      ∀ idx ∈ [(0x17 : BitVec 8), 0x50, 0xE0, 0xFF], ¬ assignedIndex idx := by
  unfold readOnlyIndex assignedIndex
  exact ⟨all_of (by decide), all_of (by decide)⟩

theorem witness_PseudoCommandsDoWhatTheyName : plainIndex (Reg.index (.buf 31)) ∧ Reg.buf 31 ≠ .g 3 := by
  unfold plainIndex
  decide

theorem witness_BcdencAndBcddec :
    (readReg (withG 1 99) (.g 1)).toNat ≤ 99 ∧ 99 < (readReg (withG 1 100) (.g 1)).toNat ∧
      (readReg (withG 1 0xFF) (.g 1)).toNat ≤ 0xFF ∧ 0xFF < (readReg (withG 1 0x100) (.g 1)).toNat := by decide

/-- For the second law a well-formed byte and a malformed one that decodes to at most 99. -/
theorem witness_BcdRoundTrips :
    (readReg (withG 1 99) (.g 1)).toNat ≤ 99 ∧ (readReg (withG 1 0x99) (.g 1)).toNat ≤ 0xFF ∧
      (readReg (withG 1 0x99) (.g 1)).toNat / 16 * 10 + (readReg (withG 1 0x99) (.g 1)).toNat % 16 ≤ 99 ∧
      (readReg (withG 1 0x8F) (.g 1)).toNat ≤ 0xFF ∧
      (readReg (withG 1 0x8F) (.g 1)).toNat / 16 * 10 + (readReg (withG 1 0x8F) (.g 1)).toNat % 16 ≤ 99 := by decide

theorem witness_WdayIsTheCalendarWeekday :
    (∀ t ∈ [time 2000 1 1 0 0 0 0, time 2099 12 31 0 0 0 0], dateFits (withTime t).time) ∧
      ∀ t ∈ [time 1999 12 31 0 0 0 0, time 2100 1 1 0 0 0 0, time 2024 13 1 0 0 0 0, time 2024 1 0 0 0 0 0,
        time 2024 1 32 0 0 0 0], ¬ dateFits (withTime t).time := by
  unfold dateFits
  decide

theorem witness_TvalidIsTheValidityPredicate :
    (∀ t ∈ [time 2024 1 1 0 0 0 9, time 2099 12 31 23 59 59 9], validTime (withTime t).time (withTime t).cfg.epoch) ∧
      ∀ t ∈ [time 2023 12 31 23 59 59 9, time 2100 1 1 0 0 0 9, time 2024 1 1 24 0 0 9, time 2024 12 31 23 59 60 9],
        ¬ validTime (withTime t).time (withTime t).cfg.epoch := by
  unfold validTime dateFits clockFits
  decide

theorem witness_TpackAndTunpackConvertTheBlock :
    let s := withTime (time 2099 12 31 23 59 59 6)
    let s' := withTime (time 2099 12 31 23 59 59 7)
    (dateFits s.time ∧ clockFits s.time ∧ s.time.weekday.toNat ≤ 6) ∧
      ¬ (dateFits s'.time ∧ clockFits s'.time ∧ s'.time.weekday.toNat ≤ 6) := by
  unfold dateFits clockFits
  decide

theorem witness_TunpackAfterTpackRestoresTime :
    let s := withTime (time 2000 1 1 0 0 0 0)
    dateFits s.time ∧ clockFits s.time ∧ s.time.weekday.toNat ≤ 6 := by
  unfold dateFits clockFits
  decide

/-- Seven bytes acknowledged; a NAK; a block one byte short and one byte long. -/
theorem witness_RtcrdReadsTheClock :
    (onSim [0x6F] (rtcCells 0x30 0x45 0x12 3 0x29 2 0x24)).bus.answer timeRead =
        .ack (List.ofFn ![0x30, 0x45, 0x12, 3, 0x29, 2, 0x24]) ∧
      ∀ s ∈ [onSim [] [], onReal [.ack [1, 2, 3, 4, 5, 6]], onReal [.ack [1, 2, 3, 4, 5, 6, 7, 8]]],
        ∀ c : Fin 7 → Byte, s.bus.answer (Request.read s.params.rtcAddr s.params.rtcTimeBase 7) ≠ .ack (List.ofFn c) :=
  ⟨by decide +kernel, fun s hs c => not_ofFn_of_refuses (by revert s; decide +kernel) c⟩

/-- An accepted RTCRD, of a valid time and of an invalid one. -/
theorem witness_RtcMachineFollowsItsTable :
    ∀ p ∈ [((0x24 : Byte), RtcState.valid), (0x23, .invalid)],
      ∃ t, exec .rtcrd (onSim [0x6F] (rtcCells 0x30 0x45 0x12 3 0x28 2 p.1)) = .next t ∧ t.err = .ok ∧ t.rtcState = p.2 := by
  intro p h
  fin_cases h <;> exact ⟨_, rfl, by decide, by decide⟩

theorem witness_RtcsetIsGuarded :
    State.reset.rtcState = .unchecked ∧ (State.reset.setRtc .valid .ready).rtcState = .valid ∧
      (State.reset.setRtc .invalid .ready).rtcState = .invalid ∧ (State.reset.setRtc .justSet .ready).rtcState = .justSet := by
  decide

/-- A block whose RTCSET passes its guard, the candidate 2024-02-29 12:45:30 staged. -/
def settable (s : State) : State := (s.setTime (time 2024 2 29 12 45 30 0)).setRtc .invalid .ready

/-- RTCSET's write from such a block under TCFG. -/
def timeWrite : Request := .write 0x6F 0 [0x30, 0x45, 0x12, 0x03, 0x29, 0x02, 0x24]

theorem settable_write (s : State) (h : s.paramSel = .tcfg) :
    Request.write (settable s).params.rtcAddr (settable s).params.rtcTimeBase (settable s).rtcBlockBytes = timeWrite := by
  have hp : (settable s).params = tcfg := by simp [State.params, settable, State.setRtc, State.setTime, h, paramsOf]
  have hb : (settable s).rtcBlockBytes = [0x30, 0x45, 0x12, 0x03, 0x29, 0x02, 0x24] := by
    unfold State.rtcBlockBytes State.rtcBlock
    rw [hp]
    show (List.ofFn fun i : Fin 7 => bcdByte ((timeFields { time 2024 2 29 12 45 30 0 with
      weekday := word (time 2024 2 29 12 45 30 0).calendarWeekday }).getD i 0) ||| tcfg.rtcSetBits[i]) = _
    decide
  rw [hp, hb]
  rfl

/-- The guard and the candidate fit; a candidate that does not; the write refused; the re-read refused, short, equal and
different. -/
theorem witness_RtcsetWritesAndConfirms :
    (∀ s : State, (settable s).rtcState = .invalid ∧ dateFits (settable s).time ∧ clockFits (settable s).time) ∧
      ¬ (dateFits (time 2024 1 1 24 0 0 0) ∧ clockFits (time 2024 1 1 24 0 0 0)) ∧
      (settable (onSim [] [])).bus.answer timeWrite = .nak ∧
      (∀ a ∈ [Answer.nak, .ack [1, 2, 3, 4, 5, 6]], (settable (onReal [.ack [], a])).bus.answer timeWrite ≠ .nak ∧
        ∀ c : Fin 7 → Byte, ((settable (onReal [.ack [], a])).bus.after timeWrite).answer timeRead ≠ .ack (List.ofFn c)) ∧
      ∀ b ∈ [(0x30 : Byte), 0x31], (settable (onReal [.ack [], .ack [b, 0x45, 0x12, 3, 0x29, 2, 0x24]])).bus.answer timeWrite ≠
          .nak ∧
        ((settable (onReal [.ack [], .ack [b, 0x45, 0x12, 3, 0x29, 2, 0x24]])).bus.after timeWrite).answer timeRead =
          .ack (List.ofFn ![b, 0x45, 0x12, 3, 0x29, 2, 0x24]) := by
  refine ⟨fun s => ⟨rfl, ?_, ?_⟩, ?_, by decide, fun a ha => ⟨by revert a; decide, fun c => ?_⟩, by decide⟩
  · show dateFits (time 2024 2 29 12 45 30 0)
    unfold dateFits
    decide
  · show clockFits (time 2024 2 29 12 45 30 0)
    unfold clockFits
    decide
  · unfold dateFits clockFits
    decide
  · exact not_ofFn_of_refuses (by revert a; decide) c

theorem witness_RtcsetSetsASimulatedRtc :
    let s := settable (onSim [0x6F] (rtcCells 0 0 0 5 1 1 0x22))
    s.rtcSettable ∧ s.simPresent s.params.rtcAddr ∧ s.bus.map.wf := by
  unfold State.rtcSettable dateFits clockFits State.simPresent
  decide

theorem witness_RtcsetTwiceIsRtcsetOnce :
    let s := settable (onSim [0x6F] [])
    s.bus.kind = .simulated ∧ s.bus.map.wf ∧ ∃ t, exec .rtcset s = .next t ∧ t.err = .ok :=
  ⟨rfl, by decide, _, rfl, by decide⟩

/-- The lengths and offsets on both sides of each bound (R131). -/
theorem witness_BusCommandsCheckTheirOperands :
    (∀ p ∈ [((0xE0 : RegOffset), 0), (0, 33), (0xE1, 32), (0xFF, 2)],
        p.2 = 0 ∨ 32 < p.2 ∨ 256 < p.1.toNat + p.2) ∧
      ∀ p ∈ [((0xE0 : RegOffset), 32), (0xFF, 1), (0, 1)], ¬ (p.2 = 0 ∨ 32 < p.2 ∨ 256 < p.1.toNat + p.2) :=
  ⟨all_of (by decide), all_of (by decide)⟩

/-- The longest block at the highest offset: acknowledged, refused, one byte short. -/
theorem witness_BusCommandsMoveTheBuffer :
    1 ≤ 32 ∧ (0xE0 : RegOffset).toNat + 32 ≤ 256 ∧
      (onSim [0x77] []).bus.answer (.write 0x77 0xE0 ((onSim [0x77] []).buf.toList.take 32)) ≠ .nak ∧
      (onSim [] []).bus.answer (.write 0x77 0xE0 ((onSim [] []).buf.toList.take 32)) = .nak ∧
      (onSim [0x77] []).bus.answer (.read 0x77 0xE0 32) = .ack (List.replicate 32 0) ∧
      (∀ bs, (onSim [] []).bus.answer (.read 0x77 0xE0 32) = .ack bs → bs.length ≠ 32) ∧
      ∀ bs, (onReal [.ack (List.replicate 31 1)]).bus.answer (.read 0x77 0xE0 32) = .ack bs → bs.length ≠ 32 := by
  refine ⟨by decide, by decide, by decide, by decide, by decide, fun bs h => (nomatch h), fun bs h => ?_⟩
  injection h with h
  rw [← h]
  decide

theorem witness_SimulatedBusStoresAndReturnsBytes :
    1 ≤ 32 ∧ (0xE0 : RegOffset).toNat + 32 ≤ 256 ∧ (onSim [0x77] sensor).bus.map.wf ∧ (onSim [0x77] sensor).simPresent 0x77 ∧
      (onSim [] sensor).bus.kind = .simulated ∧ 0x77 ∉ (onSim [] sensor).bus.present ∧
      ({ sim [0x77] sensor with fault := true } : Bus).fault = true := by
  unfold State.simPresent
  decide

theorem witness_FaultMakesEveryTransactionFail :
    let s := (onSim [0x77] []).setBus { sim [0x77] [] with fault := true }
    s.bus.kind = .simulated ∧ s.bus.fault = true := by decide

/-- The identity byte, a wrong one, a NAK and a two-byte answer to the identity read under TCFG. -/
theorem witness_SnsidVerifiesTheIdentity :
    let q := Request.read tcfg.snsAddr tcfg.chipIdReg 1
    (onSim [0x77] sensor).bus.answer q = .ack [tcfg.chipIdValue] ∧ (onReal [.ack [0x60]]).bus.answer q = .ack [0x60] ∧
      0x60 ≠ tcfg.chipIdValue ∧ (∀ b, (onSim [] []).bus.answer q ≠ .ack [b]) ∧
      ∀ b, (onReal [.ack [0x61, 0x61]]).bus.answer q ≠ .ack [b] :=
  ⟨by decide +kernel, by decide, by decide, fun _ h => (nomatch h), fun _ h => by injection h with h; injection h with _ h; exact (nomatch h)⟩

theorem witness_SnsrstResetsTheSensor :
    let q := Request.write tcfg.snsAddr tcfg.softResetReg [tcfg.softResetCmd]
    (sensorIn .identityChecked .uninitialized).snsState = .identityChecked ∧
      (sensorIn .identityChecked .uninitialized).bus.answer q ≠ .nak ∧
      ((onSim [] []).setSns .identityChecked .uninitialized).bus.answer q = .nak := by decide

theorem witness_SnscfgWritesTheConfiguration :
    (sensorIn .reset .uninitialized).snsState = .reset ∧ ((onSim [] []).setSns .reset .uninitialized).snsState = .reset := by
  decide

/-- The last write of TCFG's list, and one before it. -/
theorem witness_SnscfgConfiguresASimulatedSensor :
    let s := sensorIn .reset .uninitialized
    s.snsState = .reset ∧ s.simPresent s.params.snsAddr ∧ s.bus.map.wf ∧
      s.params.cfgWrites s.cfg.sensor = [(0x72, 0), (0x75, 0), (0x5A, 0), (0x64, 0)] ++ (0x71, 0x20) :: [(0x74, 0)] ∧
      (∀ w ∈ [((0x74 : RegOffset), (0 : Byte))], w.1 ≠ 0x71) ∧ ∀ w ∈ s.params.cfgWrites s.cfg.sensor, w.1 ≠ 0x73 :=
  ⟨rfl, ⟨rfl, by decide, rfl⟩, by decide, by decide +kernel, all_of (by decide), all_of (by decide)⟩

/-- The coefficient block acknowledged whole, refused, and acknowledged one byte short. -/
theorem witness_SnscalLoadsTheCoefficients :
    let q := Request.read tcfg.snsAddr tcfg.calBase tcfg.calLen
    (sensorIn .configured .uninitialized).snsState = .configured ∧
      (onReal [.ack fixCal]).bus.answer q = .ack fixCal ∧ fixCal.length = tcfg.calLen ∧ (onSim [] []).bus.answer q = .nak ∧
      (onReal [.ack (fixCal.take 30)]).bus.answer q = .ack (fixCal.take 30) ∧ (fixCal.take 30).length ≠ tcfg.calLen := by
  decide

theorem witness_SnsacqCompletesWithinItsBound : (sensorIn .ready .ready).snsState = .ready := rfl

/-- TCFG's one trigger write lies outside the status register and the sample; a status byte that is ready, and one that is not. -/
theorem witness_SnsacqSamplesASimulatedSensor :
    let s := sensorIn .ready .ready
    s.snsState = .ready ∧ s.simPresent s.params.snsAddr ∧ s.bus.map.wf ∧ s.retryLegal ∧
      (∀ w ∈ s.params.triggerWrites s.cfg.sensor, w.1 ≠ s.params.statusReg ∧
        (w.1.toNat < s.params.rawBase.toNat ∨ s.params.rawBase.toNat + s.params.rawLen ≤ w.1.toNat)) ∧
      s.deviceByte s.params.snsAddr s.params.statusReg &&& s.params.readyMask = s.params.readyMask ∧
      (s.setBus (sim [0x77] [])).deviceByte s.params.snsAddr s.params.statusReg &&& s.params.readyMask ≠ s.params.readyMask ∧
      s.params.triggerWrites s.cfg.sensor = [] ++ (0x74, 0x01) :: [] ∧
      ∀ w ∈ s.params.triggerWrites s.cfg.sensor, w.1 ≠ 0x73 :=
  ⟨rfl, ⟨rfl, by decide, rfl⟩, by decide, by unfold State.retryLegal; decide, all_of (by decide), by decide, by decide,
    by decide, all_of (by decide)⟩

theorem witness_OutOfOrderSensorCommandsAreRefused :
    ∀ i ∈ [Instr.snsrst, .snscfg, .snscal, .snsacq], ∃ need, snsRequired i = some need ∧ State.reset.snsState ≠ need := by
  intro i hi
  fin_cases hi <;> exact ⟨_, rfl, by decide⟩

theorem witness_IdentityMismatchHaltsTheSensor :
    let s := onSim [0x77] [(0x77, 0xD0, 0x60)]
    s.simPresent s.params.snsAddr ∧ s.deviceByte s.params.snsAddr s.params.chipIdReg ≠ s.params.chipIdValue := by
  unfold State.simPresent
  decide

theorem witness_SensorMachineFollowsItsTable :
    State.reset.snsCoherent ∧ (sensorIn .ready .ready).snsCoherent ∧ (sensorIn .halted .calibrationInvalid).snsCoherent :=
  ⟨rfl, rfl, .inr (.inr rfl)⟩

/-- Both ways out of Halted. -/
theorem witness_OnlySnsidOrResetLeavesHalted :
    ∀ op ∈ [PortOp.reset, .issue 0x30000000], ∃ t, (sensorIn .halted .notResponding).snsState = .halted ∧
      step ((sensorIn .halted .notResponding).setPort [op]) = .next t ∧ t.snsState ≠ .halted := by
  intro op h
  fin_cases h <;> exact ⟨_, rfl, rfl, by decide⟩

theorem witness_CmptWritesTheTemperature :
    (fixH.flags.calValid = true ∧ fixH.flags.rawValid = true) ∧
      ¬ (State.reset.flags.calValid = true ∧ State.reset.flags.rawValid = true) := by decide

/-- COMP_P undefined is V-CMP-16. -/
theorem witness_CmppAndCmphUseTheFineTemperature :
    (fixT.flags.calValid = true ∧ fixT.flags.rawValid = true ∧ fixT.flags.tDone = true) ∧
      fixT.params.compP (fixT.params.calDecode (fixT.calbuf.toList.take fixT.params.calLen)) fixT.tFine.toInt fixT.raw.p =
        some 100766 ∧
      (fixT.storeCalbuf 5 [0, 0]).compP = none ∧
      ¬ (fixH.flags.calValid = true ∧ fixH.flags.rawValid = true ∧ fixH.flags.tDone = true) := by decide +kernel

theorem witness_CmpgWritesTheGasResistance :
    (fixH.flags.calValid = true ∧ fixH.flags.rawValid = true) ∧
      ¬ ((fixH.setFlags (Flags.ofWrite 2)).flags.calValid = true ∧ (fixH.setFlags (Flags.ofWrite 2)).flags.rawValid = true) := by
  decide

theorem witness_CmpaqCountsTheBoundaries :
    (fixG.flags.tDone = true ∧ fixG.flags.pDone = true ∧ fixG.flags.hDone = true ∧ fixG.flags.gDone = true) ∧
      ¬ (fixT.flags.tDone = true ∧ fixT.flags.pDone = true ∧ fixT.flags.hDone = true ∧ fixT.flags.gDone = true) := by decide

theorem witness_CmpallWritesTheReading :
    let coef := fixH.params.calDecode (fixH.calbuf.toList.take fixH.params.calLen)
    (fixH.flags.calValid = true ∧ fixH.flags.rawValid = true) ∧
      fixH.params.compT coef fixH.raw.t = some (134418, 2625) ∧
      fixH.params.compP coef (BitVec.ofInt 32 134418).toInt fixH.raw.p = some 100766 ∧
      fixH.params.compH coef (BitVec.ofInt 32 134418).toInt fixH.raw.h = some 52689 ∧
      fixH.params.compG coef fixH.raw.g fixH.raw.gr = some 250528 ∧
      ¬ (State.reset.flags.calValid = true ∧ State.reset.flags.rawValid = true) := by decide +kernel

/-- Rising boundaries, and an index at the last one in use and just below it (V-AQ-1, V-AQ-2). -/
theorem witness_AirQualityBucketingIsMonotonic :
    let c : CfgRegs := { fixG.cfg with aqb := #v[250528, 250529, 0, 0, 0, 0, 0], aqn := 2 }
    (∀ i j : Fin 7, i < j → j.val < c.aqn.toNat → c.aqb[i] ≤ c.aqb[j]) ∧ (1 : Fin 7).val < c.aqn.toNat ∧
      (250528 : Word) ≤ 250529 ∧ aqBucket c 250529 = (1 : Fin 7).val + 1 ∧ aqBucket c 250528 = (1 : Fin 7).val := by decide

theorem fixT_current : fixT.Current where
  ordered := by
    unfold Flags.ordered
    decide
  temperature _ := ⟨134418, 2625, by decide +kernel, by decide, by decide⟩
  pressure h := absurd h (by decide)
  humidity h := absurd h (by decide)
  gas h := absurd h (by decide)
  airQuality h := absurd h (by decide)

/-- Two states that differ in a register which R239 does not name. -/
theorem witness_CompensationIsDeterministic :
    compensationCommand .cmpall ∧ fixT.Current ∧ (fixT.setG 0 1).Current ∧ fixT.paramSel = (fixT.setG 0 1).paramSel ∧
      fixT.calbuf = (fixT.setG 0 1).calbuf ∧ fixT.raw = (fixT.setG 0 1).raw ∧ fixT.tFine = (fixT.setG 0 1).tFine ∧
      fixT.flags = (fixT.setG 0 1).flags ∧ fixT.cfg = (fixT.setG 0 1).cfg ∧ fixT ≠ fixT.setG 0 1 :=
  ⟨by simp [compensationCommand], fixT_current, ⟨fixT_current.1, fixT_current.2, fixT_current.3, fixT_current.4,
    fixT_current.5, fixT_current.6⟩, rfl, rfl, rfl, rfl, rfl, rfl, fun h => by
      have h : fixT.g[(0 : Nat)] = (fixT.setG 0 1).g[(0 : Nat)] := by rw [← h]
      exact absurd h (by decide)⟩

theorem witness_ParametersObeyTheirConstraints : tcfg.Legal ∧ ∃ t, step (State.reset.setPort [.reset]) = .next t where
  left :=
    { distinct := by decide, timeBlock := by decide, cfgWrites_length := fun _ => by simp [tcfg, refCfgWrites]
      triggerWrites_length := fun _ => by simp [tcfg, refTriggerWrites], readyMask_ne := by decide
      rawLen_range := by decide, rawBlock := by decide, calLen_range := by decide, calBlock := by decide }
  right := ⟨_, rfl⟩

theorem witness_DoneFlagsAreCurrent :
    (fixT.setPort [.issue 0x41000000]).Current ∧ ∃ t, step (fixT.setPort [.issue 0x41000000]) = .next t :=
  ⟨⟨fixT_current.1, fixT_current.2, fixT_current.3, fixT_current.4, fixT_current.5, fixT_current.6⟩, _, rfl⟩

theorem witness_MemoryStaysCanonical :
    let s := ((onSim [0x77] sensor).storeBuf 0 [0, 1]).setPort [.issue 0x50EE021D]
    s.bus.map.wf ∧ ∃ t, step s = .next t := ⟨by decide, _, rfl⟩

theorem witness_StatusRegistersStayLegal :
    let s := (sensorIn .halted .notResponding).setPort [.issue 0x34000000]
    (s.errmaskLegal ∧ s.retryLegal ∧ s.rtcCoherent ∧ s.snsCoherent) ∧ ∃ t, step s = .next t :=
  ⟨⟨fun k hk h => by revert k; decide, by unfold State.retryLegal; decide, .inl rfl, .inl rfl⟩, _, rfl⟩

end Sys2Proof.Tests
end

/-! PROOF. The parameter record of a block (R7): every record that `paramsOf` names is legal, `legalize` fixes the legal ones, and
nothing the block does changes which record it has. The layer about commands serves every statement that needs to know that a
command answers a next state and leaves the parameters, the port and the host's answer alone. -/

namespace Sys2Proof.Machine

open Sys2Proof.Config (Params ParamSel RegWrite SensorCfg)

/-! ### The pieces of `legalize` -/

theorem freeAddr_of_not_mem {taken : List DevAddr} {a : DevAddr} (h : a ∉ taken) : freeAddr taken a = a := by
  simp [freeAddr, h]

theorem freeAddr_candidates_nodup (a : DevAddr) : [a, a + 1, a + 2, a + 3].Nodup := by
  simp

/-- Four different candidates cannot all be among three addresses. -/
theorem freeAddr_not_mem {taken : List DevAddr} (h : taken.length ≤ 3) (a : DevAddr) : freeAddr taken a ∉ taken := by
  unfold freeAddr
  cases hf : [a, a + 1, a + 2, a + 3].find? (fun x => !taken.contains x) with
  | some x => simpa using List.find?_some hf
  | none =>
    have hsub : [a, a + 1, a + 2, a + 3] ⊆ taken := fun x hx => by simpa using List.find?_eq_none.1 hf x hx
    have hlen : 4 ≤ taken.length := ((freeAddr_candidates_nodup a).subperm hsub).length_le
    omega

theorem legalLen_range {most : Nat} (h : 1 ≤ most) (n : Nat) : 1 ≤ legalLen most n ∧ legalLen most n ≤ most := by
  unfold legalLen
  omega

theorem legalLen_of_range {most n : Nat} (h : 1 ≤ n ∧ n ≤ most) : legalLen most n = n := by
  unfold legalLen
  omega

theorem legalBase_block (base : RegOffset) {n : Nat} (h : 1 ≤ n ∧ n ≤ 256) : (legalBase base n).toNat + n ≤ 256 := by
  unfold legalBase
  split
  · assumption
  · simp only [BitVec.toNat_ofNat]
    omega

theorem legalBase_of_block {base : RegOffset} {n : Nat} (h : base.toNat + n ≤ 256) : legalBase base n = base :=
  if_pos h

theorem legalCfgWrites_length (l : List RegWrite) :
    1 ≤ (legalCfgWrites l).length ∧ (legalCfgWrites l).length ≤ 16 := by
  have hlen : (l.take 16).length ≤ 16 := List.length_take_le 16 l
  unfold legalCfgWrites
  split
  · simp
  · next w ws heq =>
    rw [heq] at hlen
    exact ⟨by simp, hlen⟩

theorem legalCfgWrites_of_length {l : List RegWrite} (h : 1 ≤ l.length ∧ l.length ≤ 16) : legalCfgWrites l = l := by
  unfold legalCfgWrites
  rw [List.take_of_length_le h.2]
  cases l with
  | nil => simp at h
  | cons w ws => rfl

/-! ### Legal parameter records -/

/-- Each address that `legalize` chooses is apart from those it chose before. -/
theorem legalize_distinct (p : Params) :
    [(legalize p).rtcAddr, (legalize p).snsAddr, (legalize p).dispAddr, (legalize p).memAddr].Nodup := by
  have hsns : (legalize p).snsAddr ∉ [(legalize p).rtcAddr] := freeAddr_not_mem (by simp) _
  have hdisp : (legalize p).dispAddr ∉ [(legalize p).rtcAddr, (legalize p).snsAddr] := freeAddr_not_mem (by simp) _
  have hmem : (legalize p).memAddr ∉ [(legalize p).rtcAddr, (legalize p).snsAddr, (legalize p).dispAddr] :=
    freeAddr_not_mem (by simp) _
  grind

theorem legalize_readyMask_ne (p : Params) : (legalize p).readyMask ≠ 0 := by
  show (if p.readyMask = 0 then 1 else p.readyMask) ≠ 0
  split
  · decide
  · assumption

/-- Whatever record it starts from, `legalize` ends inside the constraints of R7. -/
theorem legalize_legal (p : Params) : (legalize p).Legal := by
  have hraw := legalLen_range (most := 32) (by omega) p.rawLen
  have hcal := legalLen_range (most := 64) (by omega) p.calLen
  exact
    { distinct := legalize_distinct p
      timeBlock := legalBase_block p.rtcTimeBase (by omega)
      cfgWrites_length := fun c => legalCfgWrites_length (p.cfgWrites c)
      triggerWrites_length := fun c => List.length_take_le 4 (p.triggerWrites c)
      readyMask_ne := legalize_readyMask_ne p
      rawLen_range := hraw
      rawBlock := legalBase_block p.rawBase (by omega)
      calLen_range := hcal
      calBlock := legalBase_block p.calBase (by omega) }

/-- Each field that `legalize` may change is one that a legal record has right already. -/
theorem legalize_of_legal {p : Params} (h : p.Legal) : legalize p = p := by
  have hdistinct := h.distinct
  have hsns : freeAddr [p.rtcAddr] p.snsAddr = p.snsAddr := freeAddr_of_not_mem (by grind)
  have hdisp : freeAddr [p.rtcAddr, p.snsAddr] p.dispAddr = p.dispAddr := freeAddr_of_not_mem (by grind)
  have hmem : freeAddr [p.rtcAddr, p.snsAddr, p.dispAddr] p.memAddr = p.memAddr := freeAddr_of_not_mem (by grind)
  have hcfg : (fun c => legalCfgWrites (p.cfgWrites c)) = p.cfgWrites :=
    funext fun c => legalCfgWrites_of_length (h.cfgWrites_length c)
  have htrigger : (fun c => (p.triggerWrites c).take 4) = p.triggerWrites :=
    funext fun c => List.take_of_length_le (h.triggerWrites_length c)
  simp only [legalize, hsns, hdisp, hmem, hcfg, htrigger, legalLen_of_range h.rawLen_range,
    legalLen_of_range h.calLen_range, legalBase_of_block h.timeBlock, legalBase_of_block h.rawBlock,
    legalBase_of_block h.calBlock, if_neg h.readyMask_ne]

@[simp] theorem length_refCfgWrites (runGas : Byte) (c : SensorCfg) : (refCfgWrites runGas c).length = 6 := rfl

@[simp] theorem length_refTriggerWrites (c : SensorCfg) : (refTriggerWrites c).length = 1 := rfl

theorem tcfg_legal : tcfg.Legal where
  distinct := by decide
  timeBlock := by decide
  cfgWrites_length c := by simp [tcfg]
  triggerWrites_length c := by simp [tcfg]
  readyMask_ne := by decide
  rawLen_range := by decide
  rawBlock := by decide
  calLen_range := by decide
  calBlock := by decide

/-- The RTC parameter set of an MCP7940N is under no constraint of R7. -/
theorem mcp7940n_legal {p : Params} (h : p.Legal) : (mcp7940n p).Legal := { h with }

theorem bme688Params_legal : bme688Params.Legal := { mcp7940n_legal tcfg_legal with }

theorem bme680Params_legal : bme680Params.Legal :=
  { mcp7940n_legal tcfg_legal with cfgWrites_length := fun c => by simp [bme680Params] }

/-- The record of any block obeys R7. -/
theorem paramsOf_legal (sel : ParamSel) : (paramsOf sel).Legal := by
  cases sel with
  | tcfg => exact tcfg_legal
  | bme688 => exact bme688Params_legal
  | bme680 => exact bme680Params_legal
  | deployment n => exact legalize_legal _

/-! ### What surrounds the block, under the shared operations -/

theorem SameOutside.refl (s : State) : SameOutside s s := ⟨rfl, rfl, rfl⟩

theorem SameOutside.trans {s t u : State} (hst : SameOutside s t) (htu : SameOutside t u) : SameOutside s u := by
  obtain ⟨hsel, hport, hdata⟩ := hst
  obtain ⟨hsel', hport', hdata'⟩ := htu
  exact ⟨hsel'.trans hsel, hport'.trans hport, hdata'.trans hdata⟩

theorem writeReg_sameOutside (s : State) (r : Reg) (v : Word) : SameOutside s (writeReg s r v) := by
  obtain ⟨-, -, -, -, -, -, -, -, -, hsel, hport, hdata⟩ := writeReg_frame s r v
  exact ⟨hsel, hport, hdata⟩

theorem writeEach_sameOutside (a : DevAddr) (l : List RegWrite) (s : State) : SameOutside s (writeEach a l s).2 := by
  rw [(writeEach_spec a l s).1]
  simp [SameOutside]

theorem pollReady_sameOutside (k : Nat) (s : State) : SameOutside s (pollReady k s).2 := by
  obtain ⟨n, -, hs, -⟩ := pollReady_spec k s
  rw [hs]
  simp [SameOutside]

theorem SameOutside.andThen {s : State} {r : Ended} {f : State → Ended} (hr : SameOutside s r.1)
    (hf : ∀ u, SameOutside u (f u).1) : SameOutside s (r.andThen f).1 := by
  by_cases h : r.2 = .ok
  · rw [Ended.andThen_ok h]
    exact hr.trans (hf r.1)
  · rw [Ended.andThen_raised h]
    exact hr

/-! ### The pseudocode of the sequencers and of the compensation stages -/

theorem stageT_sameOutside (s : State) : SameOutside s (stageT s).1 := by
  unfold stageT
  split
  · split <;> simp [SameOutside]
  · exact SameOutside.refl s

theorem stageP_sameOutside (s : State) : SameOutside s (stageP s).1 := by
  unfold stageP
  split
  · split <;> simp [SameOutside]
  · exact SameOutside.refl s

theorem stageH_sameOutside (s : State) : SameOutside s (stageH s).1 := by
  unfold stageH
  split
  · split <;> simp [SameOutside]
  · exact SameOutside.refl s

theorem stageG_sameOutside (s : State) : SameOutside s (stageG s).1 := by
  unfold stageG
  split
  · split <;> simp [SameOutside]
  · exact SameOutside.refl s

theorem stageAq_sameOutside (s : State) : SameOutside s (stageAq s).1 := by
  unfold stageAq
  split
  · simp [SameOutside]
  · exact SameOutside.refl s

theorem rtcConfirm_sameOutside (b c : List Byte) (s : State) : SameOutside s (rtcConfirm b c s).1 := by
  unfold rtcConfirm
  simp only
  split <;> simp [SameOutside]

theorem rtcReread_sameOutside (b : List Byte) (s : State) : SameOutside s (rtcReread b s).1 := by
  unfold rtcReread
  simp only
  split
  · exact SameOutside.trans (by simp [SameOutside, memRead_eq]) (rtcConfirm_sameOutside b _ _)
  · simp [SameOutside, memRead_eq]
  · simp [SameOutside, memRead_eq]

theorem rtcWrite_sameOutside (s : State) : SameOutside s (rtcWrite s).1 := by
  unfold rtcWrite
  simp only
  split
  · exact SameOutside.trans (by simp [SameOutside, memWrite_eq, rtcStage]) (rtcReread_sameOutside _ _)
  · simp [SameOutside, memWrite_eq, rtcStage]

theorem snsIdentify_sameOutside (id : Byte) (s : State) : SameOutside s (snsIdentify id s).1 := by
  unfold snsIdentify
  simp only
  split <;> simp [SameOutside]

theorem snsReadSample_sameOutside (s : State) : SameOutside s (snsReadSample s).1 := by
  unfold snsReadSample
  simp only
  split <;> simp [SameOutside, memRead_eq, snsSample, State.stale, State.dropRaw]

theorem snsPollThenRead_sameOutside (s : State) : SameOutside s (snsPollThenRead s).1 := by
  have hpoll := pollReady_sameOutside s.cfg.maxRetry.toNat s
  unfold snsPollThenRead
  simp only
  split
  · exact hpoll.trans (snsReadSample_sameOutside _)
  · exact hpoll.trans (by simp [SameOutside, State.dropRaw])
  · exact hpoll.trans (by simp [SameOutside, State.dropRaw])

/-! ### Every command completes, and leaves its surroundings but the bus alone -/

/-- The command run from `s` completes (R273), and its pseudocode left all but the bus outside the block as it was. -/
def CompletesInside (s : State) (o : Host.Outcome State Fault Refusal) : Prop :=
  ∃ r : Ended, o = finish r ∧ SameOutside s r.1

theorem completesInside_finish {s : State} {r : Ended} (h : SameOutside s r.1) : CompletesInside s (finish r) :=
  ⟨r, rfl, h⟩

theorem completesInside_raise (s : State) (e : ErrCode) : CompletesInside s (finish (raise s e)) :=
  completesInside_finish (SameOutside.refl s)

/-- Completion itself writes ERR and ERRMASK only, so the state after the command has the surroundings too. -/
theorem CompletesInside.sameOutside {s t : State} {o : Host.Outcome State Fault Refusal} (h : CompletesInside s o)
    (ht : o = .next t) : SameOutside s t := by
  obtain ⟨r, rfl, hr⟩ := h
  obtain rfl : r.1.complete r.2 = t := by simpa using ht
  exact hr.trans (by simp [SameOutside])

theorem execGet_completesInside (rd : GReg) (idx : BitVec 8) (s : State) : CompletesInside s (execGet rd idx s) := by
  unfold execGet
  split
  · exact completesInside_raise s _
  · exact completesInside_finish (by simp [SameOutside])

theorem execPut_completesInside (idx : BitVec 8) (rs : GReg) (s : State) : CompletesInside s (execPut idx rs s) := by
  unfold execPut
  split
  · exact completesInside_raise s _
  · split
    · exact completesInside_raise s _
    · exact completesInside_finish (writeReg_sameOutside s _ _)

theorem execBcdenc_completesInside (rd rs : GReg) (s : State) : CompletesInside s (execBcdenc rd rs s) := by
  unfold execBcdenc
  simp only
  split
  · exact completesInside_raise s _
  · exact completesInside_finish (by simp [SameOutside])

theorem execBcddec_completesInside (rd rs : GReg) (s : State) : CompletesInside s (execBcddec rd rs s) := by
  unfold execBcddec
  simp only
  split
  · exact completesInside_raise s _
  · exact completesInside_finish (by simp [SameOutside])

theorem execWday_completesInside (rd : GReg) (s : State) : CompletesInside s (execWday rd s) := by
  unfold execWday
  split
  · exact completesInside_finish (by simp [SameOutside])
  · exact completesInside_raise s _

theorem execTpack_completesInside (s : State) : CompletesInside s (execTpack s) := by
  unfold execTpack
  split
  · exact completesInside_finish (by simp [SameOutside])
  · exact completesInside_raise s _

theorem execRtcrd_completesInside (s : State) : CompletesInside s (execRtcrd s) := by
  unfold execRtcrd
  simp only
  split <;> exact completesInside_finish (by simp [SameOutside, memRead_eq, rtcAccept])

theorem execRtcset_completesInside (s : State) : CompletesInside s (execRtcset s) := by
  unfold execRtcset
  split
  · split
    · exact completesInside_finish (rtcWrite_sameOutside s)
    · exact completesInside_raise s _
  · exact completesInside_raise s _

theorem execSnsid_completesInside (s : State) : CompletesInside s (execSnsid s) := by
  unfold execSnsid
  simp only
  split
  · exact completesInside_finish (SameOutside.trans (by simp [SameOutside, memRead_eq]) (snsIdentify_sameOutside _ _))
  · exact completesInside_finish (by simp [SameOutside, memRead_eq])
  · exact completesInside_finish (by simp [SameOutside, memRead_eq])

theorem execSnsrst_completesInside (s : State) : CompletesInside s (execSnsrst s) := by
  unfold execSnsrst
  simp only
  split
  · split <;> exact completesInside_finish (by simp [SameOutside, memWrite_eq])
  · exact completesInside_raise s _

theorem execSnscfg_completesInside (s : State) : CompletesInside s (execSnscfg s) := by
  have hwrites := writeEach_sameOutside s.params.snsAddr (s.params.cfgWrites s.cfg.sensor) s
  unfold execSnscfg
  simp only
  split
  · split <;> exact completesInside_finish (hwrites.trans (by simp [SameOutside]))
  · exact completesInside_raise s _

theorem execSnscal_completesInside (s : State) : CompletesInside s (execSnscal s) := by
  unfold execSnscal
  simp only
  split
  · split <;> exact completesInside_finish (by simp [SameOutside, memRead_eq, snsCalibrate, State.stale, State.dropCal])
  · exact completesInside_raise s _

theorem execSnsacq_completesInside (s : State) : CompletesInside s (execSnsacq s) := by
  have hwrites : SameOutside s (writeEach s.params.snsAddr (s.params.triggerWrites s.cfg.sensor) (s.setPolls 0)).2 :=
    SameOutside.trans (by simp [SameOutside]) (writeEach_sameOutside _ _ _)
  unfold execSnsacq
  simp only
  split
  · split
    · exact completesInside_finish (hwrites.trans (snsPollThenRead_sameOutside _))
    · exact completesInside_finish (hwrites.trans (by simp [SameOutside, State.dropRaw]))
  · exact completesInside_raise s _

theorem execCmpall_completesInside (s : State) : CompletesInside s (execCmpall s) :=
  completesInside_finish <|
    ((((stageT_sameOutside s).andThen stageP_sameOutside).andThen stageH_sameOutside).andThen
      stageG_sameOutside).andThen stageAq_sameOutside

theorem execI2cwr_completesInside (addr : DevAddr) (reg : RegOffset) (len : Nat) (s : State) :
    CompletesInside s (execI2cwr addr reg len s) := by
  unfold execI2cwr
  simp only
  split
  · split <;> exact completesInside_finish (by simp [SameOutside, memWrite_eq])
  · exact completesInside_raise s _

theorem execI2crd_completesInside (addr : DevAddr) (reg : RegOffset) (len : Nat) (s : State) :
    CompletesInside s (execI2crd addr reg len s) := by
  unfold execI2crd
  simp only
  split
  · split <;> exact completesInside_finish (by simp [SameOutside, memRead_eq])
  · exact completesInside_raise s _

theorem exec_completesInside (i : Instr) (s : State) : CompletesInside s (exec i s) := by
  cases i with
  | nop => exact completesInside_finish (SameOutside.refl s)
  | ldi rd imm => exact completesInside_finish (by simp [SameOutside])
  | lui rd imm => exact completesInside_finish (by simp [SameOutside])
  | get rd idx => exact execGet_completesInside rd idx s
  | put idx rs => exact execPut_completesInside idx rs s
  | bcdenc rd rs => exact execBcdenc_completesInside rd rs s
  | bcddec rd rs => exact execBcddec_completesInside rd rs s
  | wday rd => exact execWday_completesInside rd s
  | tvalid rd => exact completesInside_finish (by simp [SameOutside])
  | tpack => exact execTpack_completesInside s
  | tunpack => exact completesInside_finish (by simp [SameOutside])
  | rtcrd => exact execRtcrd_completesInside s
  | rtcset => exact execRtcset_completesInside s
  | snsid => exact execSnsid_completesInside s
  | snsrst => exact execSnsrst_completesInside s
  | snscfg => exact execSnscfg_completesInside s
  | snscal => exact execSnscal_completesInside s
  | snsacq => exact execSnsacq_completesInside s
  | cmpt => exact completesInside_finish (stageT_sameOutside s)
  | cmpp => exact completesInside_finish (stageP_sameOutside s)
  | cmph => exact completesInside_finish (stageH_sameOutside s)
  | cmpg => exact completesInside_finish (stageG_sameOutside s)
  | cmpaq => exact completesInside_finish (stageAq_sameOutside s)
  | cmpall => exact execCmpall_completesInside s
  | i2cwr addr reg len => exact execI2cwr_completesInside addr reg len s
  | i2crd addr reg len => exact execI2crd_completesInside addr reg len s

/-- A command word completes, be it a command or illegal (R96, R273). -/
theorem runWord_completesInside (w : Word) (s : State) : CompletesInside s (runWord w s) := by
  unfold runWord
  split
  · exact exec_completesInside _ s
  · exact completesInside_raise s _

/-! ### One step, by the access it takes -/

theorem step_idle {s : State} (h : s.port = []) : step s = .next s := by
  simp [step, State.nextEvent, h]

theorem step_issue {s : State} {w : Word} {rest : List PortOp} (h : s.port = .issue w :: rest) :
    step s = runWord w (s.setPort rest) := by
  simp [step, State.nextEvent, h]

theorem step_read {s : State} {idx : BitVec 8} {rest : List PortOp} (h : s.port = .read idx :: rest) :
    step s = .next ((s.setPort rest).setHostData ((s.setPort rest).hostRead idx)) := by
  simp [step, State.nextEvent, h]

theorem step_write {s : State} {idx : BitVec 8} {v : Word} {rest : List PortOp} (h : s.port = .write idx v :: rest) :
    step s = .next ((s.setPort rest).hostWrite idx v) := by
  simp [step, State.nextEvent, h]

theorem step_reset {s : State} {rest : List PortOp} (h : s.port = .reset :: rest) :
    step s = .next (s.setPort rest).resetBlock := by
  simp [step, State.nextEvent, h]

theorem step_harness {s : State} {op : HarnessOp} {rest : List PortOp} (h : s.port = .harness op :: rest) :
    step s = .next ((s.setPort rest).setBus (s.bus.harness op)) := by
  simp [step, State.nextEvent, h]

/-- A host write leaves the surroundings alone, whether it is ignored or stored (R44). -/
theorem hostWrite_sameOutside (s : State) (idx : BitVec 8) (v : Word) : SameOutside s (s.hostWrite idx v) := by
  unfold State.hostWrite
  split
  · exact SameOutside.refl s
  · split
    · exact SameOutside.refl s
    · exact writeReg_sameOutside s _ v

/-- A block keeps its parameter record for good (R7): no access, reset included, changes it. -/
theorem step_paramSel {s t : State} (h : step s = .next t) : t.paramSel = s.paramSel := by
  cases hp : s.port with
  | nil =>
    rw [step_idle hp] at h
    cases h
    rfl
  | cons op rest =>
    cases op with
    | issue w =>
      rw [step_issue hp] at h
      obtain ⟨hsel, -, -⟩ := (runWord_completesInside w (s.setPort rest)).sameOutside h
      exact hsel
    | read idx =>
      rw [step_read hp] at h
      cases h
      rfl
    | write idx v =>
      rw [step_write hp] at h
      cases h
      obtain ⟨hsel, -, -⟩ := hostWrite_sameOutside (s.setPort rest) idx v
      exact hsel
    | reset =>
      rw [step_reset hp] at h
      cases h
      rfl
    | harness op =>
      rw [step_harness hp] at h
      cases h
      rfl

/-- Settles O56: each named record meets R7 and `legalize` brings any record inside it; a legal record is a fixed point of
`legalize`, field by field; a step keeps the record, by the access it takes. -/
theorem parametersObeyTheirConstraints : Obligations.ParametersObeyTheirConstraints := by
  unfold Obligations.ParametersObeyTheirConstraints
  exact ⟨paramsOf_legal, fun _ h => legalize_of_legal h, fun _ _ h => step_paramSel h⟩

end Sys2Proof.Machine

/-! PROOF. The registers of the block (R20-R44): the invariants that every step keeps (R25, R29, R38, R186, R190), what a write
does to each register, and the host register port. What a step can do is said once: it is a sequence of the single updates that
`Update` lists. An invariant is then kept by every step as soon as each single update keeps it. -/

namespace Sys2Proof.Machine

open Sys2Proof.Config (Request RegWrite)

/-! ### The single updates that a step is made of -/

/-- What CMPT writes where its formula has a value (R240). -/
def State.storeT (s : State) (tf t : Int) : State :=
  ((s.setTFine (wrap32 tf)).setOut { s.out with t := wrap32 t }).setFlags { s.flags with tDone := true }

/-- What CMPP writes where its formula has a value (R243). -/
def State.storeP (s : State) (p : Int) : State :=
  (s.setOut { s.out with p := wrap32 p }).setFlags { s.flags with pDone := true }

/-- What CMPH writes where its formula has a value (R246). -/
def State.storeH (s : State) (h : Int) : State :=
  (s.setOut { s.out with h := wrap32 h }).setFlags { s.flags with hDone := true }

/-- What CMPG writes where its formula has a value (R249). -/
def State.storeG (s : State) (g : Int) : State :=
  (s.setOut { s.out with g := wrap32 g }).setFlags { s.flags with gDone := true }

/-- What CMPAQ writes (R252). -/
def State.storeAq (s : State) : State :=
  (s.setOut { s.out with aq := BitVec.ofNat 3 (aqBucket s.cfg s.aqIndex) }).setFlags { s.flags with aqDone := true }

/-- SNSCAL's acceptance of a coefficient block: new coefficients, nothing computed from them (R208). -/
def State.acceptCal (s : State) (bs : List Byte) : State :=
  ((s.storeCalbuf 0 bs).setFlags { s.flags with calValid := true }).stale

/-- SNSACQ's acceptance of a sample: new raw values, nothing computed from them (R213, R216). -/
def State.acceptRaw (s : State) (r : RawSample) : State := ((s.setRaw r).setFlags { s.flags with rawValid := true }).stale

/-- The single updates, each with the condition under which a command makes it. -/
inductive Update : State → State → Prop where
  | setG (s : State) (r : GReg) (v : Word) : Update s (s.setG r v)
  | storeBuf (s : State) (k : Nat) (bs : List Byte) : Update s (s.storeBuf k bs)
  | setTime (s : State) (t : RtcTime) : Update s (s.setTime t)
  | setPolls (s : State) (n : BitVec 8) : Update s (s.setPolls n)
  | transact (s : State) (q : Request) : Update s (s.setBus (s.bus.after q))
  | write (s : State) (r : Reg) (v : Word) : Update s (writeReg s r v)
  | complete (s : State) (e : ErrCode) : Update s (s.complete e)
  | rtc (s : State) (st : RtcState) (dev : DeviceStatus) (h : (s.setRtc st dev).rtcCoherent) : Update s (s.setRtc st dev)
  | sns (s : State) (st : SnsState) (dev : DeviceStatus) (h : (s.setSns st dev).snsCoherent) : Update s (s.setSns st dev)
  | snsReset (s : State) (h : s.snsState = .identityChecked) : Update s (s.setSns .reset s.snsDev)
  | snsConfigured (s : State) (h : s.snsState = .reset) : Update s (s.setSns .configured s.snsDev)
  | dropCal (s : State) : Update s s.dropCal
  | dropRaw (s : State) : Update s s.dropRaw
  | invalidate (s : State) : Update s (s.setFlags s.flags.invalidate)
  | acceptCal (s : State) (bs : List Byte) : Update s (s.acceptCal bs)
  | acceptRaw (s : State) (r : RawSample) : Update s (s.acceptRaw r)
  | storeT (s : State) (tf t : Int) (h : s.compT = some (tf, t)) : Update s (s.storeT tf t)
  | storeP (s : State) (p : Int) (hf : s.fineValid = true) (h : s.compP = some p) : Update s (s.storeP p)
  | storeH (s : State) (x : Int) (hf : s.fineValid = true) (h : s.compH = some x) : Update s (s.storeH x)
  | storeG (s : State) (g : Int) (h : s.compG = some g) : Update s (s.storeG g)
  | storeAq (s : State) (h : s.outputsDone = true) : Update s s.storeAq
  | setPort (s : State) (p : List PortOp) : Update s (s.setPort p)
  | setHostData (s : State) (v : Word) : Update s (s.setHostData v)
  | resetBlock (s : State) : Update s s.resetBlock
  | harness (s : State) (op : HarnessOp) : Update s (s.setBus (s.bus.harness op))

/-- Any number of single updates, one after another. -/
abbrev Updates : State → State → Prop := Relation.ReflTransGen Update

/-- A property that every single update keeps is kept by any number of them. -/
theorem Updates.keeps {I : State → Prop} (hI : ∀ s t, Update s t → I s → I t) {s t : State} (h : Updates s t) (hs : I s) :
    I t := by
  induction h with
  | refl => exact hs
  | tail _ hlast ih => exact hI _ _ hlast ih

theorem Updates.andThen {s : State} {r : Ended} {f : State → Ended} (hr : Updates s r.1) (hf : ∀ u, Updates u (f u).1) :
    Updates s (r.andThen f).1 := by
  by_cases h : r.2 = .ok
  · rw [Ended.andThen_ok h]
    exact hr.trans (hf r.1)
  · rw [Ended.andThen_raised h]
    exact hr

/-! ### The shared bus sequences as updates -/

theorem memWrite_updates (s : State) (a : DevAddr) (r : RegOffset) (bs : List Byte) : Updates s (memWrite s a r bs).2 :=
  .single (.transact s _)

theorem memRead_updates (s : State) (a : DevAddr) (r : RegOffset) (n : Nat) : Updates s (memRead s a r n).2 :=
  .single (.transact s _)

theorem writeEach_updates (a : DevAddr) (l : List RegWrite) (s : State) : Updates s (writeEach a l s).2 := by
  induction l generalizing s with
  | nil => exact .refl
  | cons w l ih =>
    obtain ⟨r, v⟩ := w
    have hw := memWrite_updates s a r [v]
    simp only [writeEach]
    split
    · exact hw.trans (ih _)
    · exact hw

theorem pollReady_updates (k : Nat) (s : State) : Updates s (pollReady k s).2 := by
  induction k generalizing s with
  | zero => exact .refl
  | succ k ih =>
    have hpoll : Updates s (memRead s s.params.snsAddr s.params.statusReg 1).2.countPoll :=
      (memRead_updates s _ _ _).tail (.setPolls _ _)
    simp only [pollReady]
    split
    · split
      · exact hpoll
      · exact hpoll.trans (ih _)
    · exact hpoll
    · exact hpoll

/-! ### The stages of the compensation pipeline as updates -/

theorem stageT_updates (s : State) : Updates s (stageT s).1 := by
  unfold stageT
  split
  · split
    · exact .refl
    · next h => exact .single (.storeT s _ _ h)
  · exact .refl

theorem stageP_updates (s : State) : Updates s (stageP s).1 := by
  unfold stageP
  split
  · next hf =>
    split
    · exact .refl
    · next h => exact .single (.storeP s _ hf h)
  · exact .refl

theorem stageH_updates (s : State) : Updates s (stageH s).1 := by
  unfold stageH
  split
  · next hf =>
    split
    · exact .refl
    · next h => exact .single (.storeH s _ hf h)
  · exact .refl

theorem stageG_updates (s : State) : Updates s (stageG s).1 := by
  unfold stageG
  split
  · split
    · exact .refl
    · next h => exact .single (.storeG s _ h)
  · exact .refl

theorem stageAq_updates (s : State) : Updates s (stageAq s).1 := by
  unfold stageAq
  split
  · next h => exact .single (.storeAq s h)
  · exact .refl

/-! ### The pseudocode of the sequencers as updates -/

theorem rtcBusFailure_updates (s : State) : Updates s (rtcBusFailure s).1 := .single (.rtc s _ _ (.inr rfl))

theorem rtcAccept_updates (bs : List Byte) (s : State) : Updates s (rtcAccept bs s).1 := by
  have hstore : Updates s ((s.storeBuf 0 bs).setTime (RtcTime.ofBcd (maskTime s.params.rtcDataMask bs))) :=
    .tail (.single (.storeBuf s 0 bs)) (.setTime _ _)
  refine hstore.tail (.rtc _ _ _ ?_)
  split
  · exact rfl
  · exact .inl rfl

theorem rtcConfirm_updates (b c : List Byte) (s : State) : Updates s (rtcConfirm b c s).1 := by
  have hstore : Updates s (s.storeBuf 8 c) := .single (.storeBuf s 8 c)
  unfold rtcConfirm
  simp only
  split
  · exact hstore.tail (.rtc _ _ _ rfl)
  · exact hstore.tail (.rtc _ _ _ (.inr rfl))

theorem rtcReread_updates (b : List Byte) (s : State) : Updates s (rtcReread b s).1 := by
  have hread := memRead_updates s s.params.rtcAddr s.params.rtcTimeBase 7
  unfold rtcReread
  simp only
  split
  · exact hread.trans (rtcConfirm_updates b _ _)
  · exact hread.trans (rtcBusFailure_updates _)
  · exact hread.trans (rtcBusFailure_updates _)

theorem rtcWrite_updates (s : State) : Updates s (rtcWrite s).1 := by
  have hstage : Updates s (rtcStage s) := .tail (.single (.setTime s _)) (.storeBuf _ 0 _)
  have hwrite := hstage.trans (memWrite_updates _ s.params.rtcAddr s.params.rtcTimeBase (rtcSetBytes s))
  unfold rtcWrite
  simp only
  split
  · exact hwrite.trans (rtcReread_updates _ _)
  · exact hwrite.trans (rtcBusFailure_updates _)

theorem snsBusFailure_updates (s : State) : Updates s (snsBusFailure s).1 := .single (.sns s _ _ (.inl rfl))

theorem snsReadSample_updates (s : State) : Updates s (snsReadSample s).1 := by
  have hread := memRead_updates s s.params.snsAddr s.params.rawBase s.params.rawLen
  unfold snsReadSample
  simp only
  split
  · exact (hread.tail (.storeBuf _ 0 _)).tail (.acceptRaw _ _)
  · exact (hread.tail (.dropRaw _)).trans (snsBusFailure_updates _)
  · exact (hread.tail (.dropRaw _)).trans (snsBusFailure_updates _)

theorem snsPollThenRead_updates (s : State) : Updates s (snsPollThenRead s).1 := by
  have hpoll := pollReady_updates s.cfg.maxRetry.toNat s
  unfold snsPollThenRead
  simp only
  split
  · exact hpoll.trans (snsReadSample_updates _)
  · exact (hpoll.tail (.dropRaw _)).tail (.sns _ _ _ (.inl rfl))
  · exact (hpoll.tail (.dropRaw _)).trans (snsBusFailure_updates _)

/-! ### Every step is a sequence of single updates -/

/-- The command or access made in `s` is answered with a next state that single updates lead to. -/
def AnswersByUpdates (s : State) (o : Host.Outcome State Fault Refusal) : Prop := ∃ t, o = .next t ∧ Updates s t

theorem answersByUpdates_finish {s : State} {r : Ended} (h : Updates s r.1) : AnswersByUpdates s (finish r) :=
  ⟨_, rfl, h.tail (.complete _ _)⟩

theorem answersByUpdates_raise (s : State) (e : ErrCode) : AnswersByUpdates s (finish (raise s e)) :=
  answersByUpdates_finish (r := raise s e) .refl

/-- A command that writes one general register. -/
theorem answersByUpdates_setG (s : State) (rd : GReg) (v : Word) : AnswersByUpdates s (finish (done (s.setG rd v))) :=
  answersByUpdates_finish (.single (.setG s rd v))

theorem execGet_updates (rd : GReg) (idx : BitVec 8) (s : State) : AnswersByUpdates s (execGet rd idx s) := by
  unfold execGet
  split
  · exact answersByUpdates_raise s _
  · exact answersByUpdates_setG s rd _

theorem execPut_updates (idx : BitVec 8) (rs : GReg) (s : State) : AnswersByUpdates s (execPut idx rs s) := by
  unfold execPut
  split
  · exact answersByUpdates_raise s _
  · split
    · exact answersByUpdates_raise s _
    · exact answersByUpdates_finish (.single (.write s _ _))

theorem execBcdenc_updates (rd rs : GReg) (s : State) : AnswersByUpdates s (execBcdenc rd rs s) := by
  unfold execBcdenc
  simp only
  split
  · exact answersByUpdates_raise s _
  · exact answersByUpdates_setG s rd _

theorem execBcddec_updates (rd rs : GReg) (s : State) : AnswersByUpdates s (execBcddec rd rs s) := by
  unfold execBcddec
  simp only
  split
  · exact answersByUpdates_raise s _
  · exact answersByUpdates_setG s rd _

theorem execWday_updates (rd : GReg) (s : State) : AnswersByUpdates s (execWday rd s) := by
  unfold execWday
  split
  · exact answersByUpdates_setG s rd _
  · exact answersByUpdates_raise s _

theorem execTpack_updates (s : State) : AnswersByUpdates s (execTpack s) := by
  unfold execTpack
  split
  · exact answersByUpdates_finish (.single (.storeBuf s 0 _))
  · exact answersByUpdates_raise s _

theorem execRtcrd_updates (s : State) : AnswersByUpdates s (execRtcrd s) := by
  have hread := memRead_updates s s.params.rtcAddr s.params.rtcTimeBase 7
  unfold execRtcrd
  simp only
  split
  · exact answersByUpdates_finish (hread.trans (rtcAccept_updates _ _))
  · exact answersByUpdates_finish (hread.trans (rtcBusFailure_updates _))
  · exact answersByUpdates_finish (hread.trans (rtcBusFailure_updates _))

theorem execRtcset_updates (s : State) : AnswersByUpdates s (execRtcset s) := by
  unfold execRtcset
  split
  · split
    · exact answersByUpdates_finish (rtcWrite_updates s)
    · exact answersByUpdates_raise s _
  · exact answersByUpdates_raise s _

/-- SNSID's restart of the state machine is no update of its own: each of its ends moves the state machine on from there, and
that move leaves nothing of the restart. -/
theorem execSnsid_updates (s : State) : AnswersByUpdates s (execSnsid s) := by
  have hread := memRead_updates s s.params.snsAddr s.params.chipIdReg 1
  unfold execSnsid
  simp only [memRead_eq, State.setSns_bus]
  split
  · next bs _ =>
    have hstore := hread.tail (.storeBuf _ 0 [byteAt bs 0])
    unfold snsIdentify
    simp only
    split
    · exact answersByUpdates_finish (hstore.tail (.sns _ .identityChecked .uninitialized rfl))
    · exact answersByUpdates_finish (hstore.tail (.sns _ .halted .identityMismatch (.inr (.inl rfl))))
  · exact answersByUpdates_finish (hread.tail (.sns _ .halted .notResponding (.inl rfl)))
  · exact answersByUpdates_finish (hread.tail (.sns _ .halted .notResponding (.inl rfl)))

theorem execSnsrst_updates (s : State) : AnswersByUpdates s (execSnsrst s) := by
  have hwrite : Updates s (memWrite (s.setFlags s.flags.invalidate) s.params.snsAddr s.params.softResetReg
      [s.params.softResetCmd]).2 := .tail (.single (.invalidate s)) (.transact _ _)
  unfold execSnsrst
  simp only
  split
  · next hst =>
    split
    · exact answersByUpdates_finish (hwrite.tail (.snsReset _ hst))
    · exact answersByUpdates_finish (hwrite.trans (snsBusFailure_updates _))
  · exact answersByUpdates_raise s _

theorem execSnscfg_updates (s : State) : AnswersByUpdates s (execSnscfg s) := by
  have hwrites := writeEach_updates s.params.snsAddr (s.params.cfgWrites s.cfg.sensor) s
  have hbus := (writeEach_spec s.params.snsAddr (s.params.cfgWrites s.cfg.sensor) s).1
  unfold execSnscfg
  simp only
  split
  · next hst =>
    split
    · exact answersByUpdates_finish (hwrites.tail (.snsConfigured _ (by rw [hbus]; exact hst)))
    · exact answersByUpdates_finish (hwrites.trans (snsBusFailure_updates _))
  · exact answersByUpdates_raise s _

theorem execSnscal_updates (s : State) : AnswersByUpdates s (execSnscal s) := by
  have hread := memRead_updates s s.params.snsAddr s.params.calBase s.params.calLen
  unfold execSnscal
  simp only
  split
  · split
    · exact answersByUpdates_finish ((hread.tail (.acceptCal _ _)).tail (.sns _ _ _ rfl))
    · exact answersByUpdates_finish ((hread.tail (.dropCal _)).trans (snsBusFailure_updates _))
    · exact answersByUpdates_finish ((hread.tail (.dropCal _)).tail (.sns _ _ _ (.inr (.inr rfl))))
  · exact answersByUpdates_raise s _

theorem execSnsacq_updates (s : State) : AnswersByUpdates s (execSnsacq s) := by
  have hwrites : Updates s (writeEach s.params.snsAddr (s.params.triggerWrites s.cfg.sensor) (s.setPolls 0)).2 :=
    .head (.setPolls s 0) (writeEach_updates _ _ _)
  unfold execSnsacq
  simp only
  split
  · split
    · exact answersByUpdates_finish (hwrites.trans (snsPollThenRead_updates _))
    · exact answersByUpdates_finish ((hwrites.tail (.dropRaw _)).trans (snsBusFailure_updates _))
  · exact answersByUpdates_raise s _

theorem execCmpall_updates (s : State) : AnswersByUpdates s (execCmpall s) :=
  answersByUpdates_finish <|
    ((((stageT_updates s).andThen stageP_updates).andThen stageH_updates).andThen stageG_updates).andThen stageAq_updates

theorem execI2cwr_updates (addr : DevAddr) (reg : RegOffset) (len : Nat) (s : State) :
    AnswersByUpdates s (execI2cwr addr reg len s) := by
  have hwrite := memWrite_updates s addr reg (s.buf.toList.take len)
  unfold execI2cwr
  simp only
  split
  · split <;> exact answersByUpdates_finish hwrite
  · exact answersByUpdates_raise s _

theorem execI2crd_updates (addr : DevAddr) (reg : RegOffset) (len : Nat) (s : State) :
    AnswersByUpdates s (execI2crd addr reg len s) := by
  have hread := memRead_updates s addr reg len
  unfold execI2crd
  simp only
  split
  · split
    · exact answersByUpdates_finish (hread.tail (.storeBuf _ 0 _))
    · exact answersByUpdates_finish hread
    · exact answersByUpdates_finish hread
  · exact answersByUpdates_raise s _

theorem exec_updates (i : Instr) (s : State) : AnswersByUpdates s (exec i s) := by
  cases i with
  | nop => exact answersByUpdates_finish .refl
  | ldi rd imm => exact answersByUpdates_setG s rd _
  | lui rd imm => exact answersByUpdates_setG s rd _
  | get rd idx => exact execGet_updates rd idx s
  | put idx rs => exact execPut_updates idx rs s
  | bcdenc rd rs => exact execBcdenc_updates rd rs s
  | bcddec rd rs => exact execBcddec_updates rd rs s
  | wday rd => exact execWday_updates rd s
  | tvalid rd => exact answersByUpdates_setG s rd _
  | tpack => exact execTpack_updates s
  | tunpack => exact answersByUpdates_finish (.single (.setTime s _))
  | rtcrd => exact execRtcrd_updates s
  | rtcset => exact execRtcset_updates s
  | snsid => exact execSnsid_updates s
  | snsrst => exact execSnsrst_updates s
  | snscfg => exact execSnscfg_updates s
  | snscal => exact execSnscal_updates s
  | snsacq => exact execSnsacq_updates s
  | cmpt => exact answersByUpdates_finish (stageT_updates s)
  | cmpp => exact answersByUpdates_finish (stageP_updates s)
  | cmph => exact answersByUpdates_finish (stageH_updates s)
  | cmpg => exact answersByUpdates_finish (stageG_updates s)
  | cmpaq => exact answersByUpdates_finish (stageAq_updates s)
  | cmpall => exact execCmpall_updates s
  | i2cwr addr reg len => exact execI2cwr_updates addr reg len s
  | i2crd addr reg len => exact execI2crd_updates addr reg len s

theorem runWord_updates (w : Word) (s : State) : AnswersByUpdates s (runWord w s) := by
  unfold runWord
  split
  · exact exec_updates _ s
  · exact answersByUpdates_raise s _

theorem hostWrite_updates (s : State) (idx : BitVec 8) (v : Word) : Updates s (s.hostWrite idx v) := by
  unfold State.hostWrite
  split
  · exact .refl
  · split
    · exact .refl
    · exact .single (.write s _ v)

/-- Whatever access a step takes, single updates lead to the state it answers. -/
theorem step_updates (s : State) : AnswersByUpdates s (step s) := by
  cases hp : s.port with
  | nil => exact ⟨s, step_idle hp, .refl⟩
  | cons op rest =>
    have htaken : Updates s (s.setPort rest) := .single (.setPort s rest)
    cases op with
    | issue w =>
      obtain ⟨t, ht, hupd⟩ := runWord_updates w (s.setPort rest)
      exact ⟨t, (step_issue hp).trans ht, htaken.trans hupd⟩
    | read idx => exact ⟨_, step_read hp, htaken.tail (.setHostData _ _)⟩
    | write idx v => exact ⟨_, step_write hp, htaken.trans (hostWrite_updates _ idx v)⟩
    | reset => exact ⟨_, step_reset hp, htaken.tail (.resetBlock _)⟩
    | harness op => exact ⟨_, step_harness hp, htaken.tail (.harness _ op)⟩

/-- An invariant of the single updates is an invariant of the machine. -/
theorem step_keeps {I : State → Prop} (hI : ∀ s t, Update s t → I s → I t) {s t : State} (h : step s = .next t) (hs : I s) :
    I t := by
  obtain ⟨t', ht', hupd⟩ := step_updates s
  obtain rfl : t' = t := by simpa using ht'.symm.trans h
  exact hupd.keeps hI hs

/-! ### The status registers stay legal -/

theorem ErrCode.number_range {e : ErrCode} (h : e ≠ .ok) : 1 ≤ e.number.toNat ∧ e.number.toNat ≤ 8 := by
  cases e with
  | ok => contradiction
  | _ => decide

/-- Completion adds the bit of a code (R272), a write clears bits (R25), reset clears all; nothing else writes ERRMASK. -/
theorem Update.errmaskLegal {s t : State} (h : Update s t) (hs : s.errmaskLegal) : t.errmaskLegal := by
  cases h with
  | complete e =>
    intro k hk hbit
    rw [State.complete_errmask, BitVec.getLsbD_or, ErrCode.getLsbD_maskBit e k hk, Bool.or_eq_true] at hbit
    rcases hbit with hold | hnew
    · exact hs k hk hold
    · obtain ⟨he, rfl⟩ : e ≠ .ok ∧ k = e.number.toNat := by simpa using hnew
      exact ErrCode.number_range he
  | write r v =>
    by_cases hr : r = .errmask
    · subst hr
      intro k hk hbit
      obtain ⟨hold, -⟩ : s.errmask.getLsbD k = true ∧ _ := by simpa [writeReg] using hbit
      exact hs k hk hold
    · intro k hk hbit
      rw [writeReg_errmask s r v hr] at hbit
      exact hs k hk hbit
  | resetBlock =>
    intro k hk hbit
    simp [State.resetBlock, State.resetOn] at hbit
  | _ => exact hs

theorem legalRetry_ne_zero (v : Word) : legalRetry v ≠ 0 := by
  unfold legalRetry
  split
  · decide
  · assumption

/-- A write stores the legal value of CFG_MAXRETRY (R38), reset stores 10; nothing else writes it. -/
theorem Update.retryLegal {s t : State} (h : Update s t) (hs : s.retryLegal) : t.retryLegal := by
  cases h with
  | write r v =>
    cases r with
    | cfgMaxRetry => exact legalRetry_ne_zero v
    | _ => exact hs
  | resetBlock => exact (by decide : (10 : BitVec 8) ≠ 0)
  | _ => exact hs

theorem Update.rtcCoherent {s t : State} (h : Update s t) (hs : s.rtcCoherent) : t.rtcCoherent := by
  cases h with
  | rtc st dev hpair => exact hpair
  | write r v =>
    obtain ⟨hst, hdev, -⟩ := writeReg_frame s r v
    unfold State.rtcCoherent
    rw [hst, hdev]
    exact hs
  | resetBlock => exact .inl rfl
  | _ => exact hs

/-- The moves that keep SNS_DEV leave states in which it is Uninitialized for states in which it must be (R190). -/
theorem Update.snsCoherent {s t : State} (h : Update s t) (hs : s.snsCoherent) : t.snsCoherent := by
  cases h with
  | sns st dev hpair => exact hpair
  | snsReset hst =>
    show s.snsDev = .uninitialized
    simpa [State.snsCoherent, hst] using hs
  | snsConfigured hst =>
    show s.snsDev = .uninitialized
    simpa [State.snsCoherent, hst] using hs
  | write r v =>
    obtain ⟨-, -, hst, hdev, -⟩ := writeReg_frame s r v
    unfold State.snsCoherent
    rw [hst, hdev]
    exact hs
  | resetBlock => exact rfl
  | _ => exact hs

/-- Settles O59: each of the four invariants is kept by every single update. -/
theorem statusRegistersStayLegal : Obligations.StatusRegistersStayLegal := by
  unfold Obligations.StatusRegistersStayLegal
  intro s t hs hstep
  obtain ⟨hmask, hretry, hrtc, hsns⟩ := hs
  exact ⟨step_keeps (fun _ _ => Update.errmaskLegal) hstep hmask, step_keeps (fun _ _ => Update.retryLegal) hstep hretry,
    step_keeps (fun _ _ => Update.rtcCoherent) hstep hrtc, step_keeps (fun _ _ => Update.snsCoherent) hstep hsns⟩

/-! ### The done flags are current -/

/-- With no done bit set there is nothing to be current. -/
theorem current_of_stale {t : State} {f : Flags} (h : t.flags = f.stale) : t.Current where
  ordered := by simp [h, Flags.ordered, Flags.stale]
  temperature hd := by simp [h, Flags.stale] at hd
  pressure hd := by simp [h, Flags.stale] at hd
  humidity hd := by simp [h, Flags.stale] at hd
  gas hd := by simp [h, Flags.stale] at hd
  airQuality hd := by simp [h, Flags.stale] at hd

/-- The four outputs before air quality do not depend on the CFG registers (R40). -/
theorem State.Current.writeAq {s : State} (hs : s.Current) (c : CfgRegs) : (s.writeAq c).Current := by
  obtain ⟨hp, hh, -⟩ := hs.ordered
  exact { hs with ordered := ⟨hp, hh, nofun⟩, airQuality := nofun }

/-- A write either stales what depends on the register written, or writes a register that no output depends on (R30, R31,
R40). -/
theorem State.Current.writeReg {s : State} (hs : s.Current) (r : Reg) (v : Word) : (writeReg s r v).Current := by
  cases r with
  | flags | rawT | rawP | rawH | rawG | rawGr | rawHs | calbuf i => exact current_of_stale rfl
  | cfgAqb i | cfgAqn => exact hs.writeAq _
  | _ => exact { hs with }

/-- A done CMPT run again writes what is there. -/
theorem State.storeT_eq_self {s : State} (hs : s.Current) (hd : s.flags.tDone = true) {tf t : Int}
    (h : s.compT = some (tf, t)) : s.storeT tf t = s := by
  obtain ⟨tf', t', h', hfine, hout⟩ := hs.temperature hd
  obtain ⟨rfl, rfl⟩ : tf' = tf ∧ t' = t := by simpa [h] using h'.symm
  rw [State.storeT, ← hfine, ← hout, ← hd]
  rfl

/-- A first CMPT writes registers that no standing flag depends on: pressure, humidity and air quality need T_DONE. -/
theorem State.Current.storeT {s : State} (hs : s.Current) {tf t : Int} (h : s.compT = some (tf, t)) :
    (s.storeT tf t).Current := by
  by_cases hd : s.flags.tDone = true
  · rw [State.storeT_eq_self hs hd h]
    exact hs
  · obtain ⟨hp, hh, ha⟩ := hs.ordered
    exact
      { ordered := ⟨fun _ => rfl, fun _ => rfl, fun haq => absurd (ha haq).1 hd⟩
        temperature := fun _ => ⟨tf, t, h, rfl, rfl⟩
        pressure := fun hpd => absurd (hp hpd) hd
        humidity := fun hhd => absurd (hh hhd) hd
        gas := hs.gas
        airQuality := fun haq => absurd (ha haq).1 hd }

theorem State.storeP_eq_self {s : State} (hs : s.Current) (hd : s.flags.pDone = true) {p : Int} (h : s.compP = some p) :
    s.storeP p = s := by
  obtain ⟨p', h', hout⟩ := hs.pressure hd
  obtain rfl : p' = p := by simpa [h] using h'.symm
  rw [State.storeP, ← hout, ← hd]
  rfl

theorem State.Current.storeP {s : State} (hs : s.Current) (hf : s.fineValid = true) {p : Int} (h : s.compP = some p) :
    (s.storeP p).Current := by
  by_cases hd : s.flags.pDone = true
  · rw [State.storeP_eq_self hs hd h]
    exact hs
  · obtain ⟨-, hh, ha⟩ := hs.ordered
    have ht : s.flags.tDone = true := (Bool.and_eq_true_iff.1 hf).2
    exact
      { hs with
        ordered := ⟨fun _ => ht, hh, fun haq => absurd (ha haq).2.1 hd⟩
        pressure := fun _ => ⟨p, h, rfl⟩
        airQuality := fun haq => absurd (ha haq).2.1 hd }

theorem State.storeH_eq_self {s : State} (hs : s.Current) (hd : s.flags.hDone = true) {x : Int} (h : s.compH = some x) :
    s.storeH x = s := by
  obtain ⟨x', h', hout⟩ := hs.humidity hd
  obtain rfl : x' = x := by simpa [h] using h'.symm
  rw [State.storeH, ← hout, ← hd]
  rfl

theorem State.Current.storeH {s : State} (hs : s.Current) (hf : s.fineValid = true) {x : Int} (h : s.compH = some x) :
    (s.storeH x).Current := by
  by_cases hd : s.flags.hDone = true
  · rw [State.storeH_eq_self hs hd h]
    exact hs
  · obtain ⟨hp, -, ha⟩ := hs.ordered
    have ht : s.flags.tDone = true := (Bool.and_eq_true_iff.1 hf).2
    exact
      { hs with
        ordered := ⟨hp, fun _ => ht, fun haq => absurd (ha haq).2.2.1 hd⟩
        humidity := fun _ => ⟨x, h, rfl⟩
        airQuality := fun haq => absurd (ha haq).2.2.1 hd }

theorem State.storeG_eq_self {s : State} (hs : s.Current) (hd : s.flags.gDone = true) {g : Int} (h : s.compG = some g) :
    s.storeG g = s := by
  obtain ⟨g', h', hout⟩ := hs.gas hd
  obtain rfl : g' = g := by simpa [h] using h'.symm
  rw [State.storeG, ← hout, ← hd]
  rfl

theorem State.Current.storeG {s : State} (hs : s.Current) {g : Int} (h : s.compG = some g) : (s.storeG g).Current := by
  by_cases hd : s.flags.gDone = true
  · rw [State.storeG_eq_self hs hd h]
    exact hs
  · obtain ⟨hp, hh, ha⟩ := hs.ordered
    exact
      { hs with
        ordered := ⟨hp, hh, fun haq => absurd (ha haq).2.2.2 hd⟩
        gas := fun _ => ⟨g, h, rfl⟩
        airQuality := fun haq => absurd (ha haq).2.2.2 hd }

/-- At most seven boundaries are counted, so OUT_AQ's three bits hold the bucket (R262). -/
theorem aqBucket_lt (c : CfgRegs) (x : Word) : aqBucket c x < 8 := by
  have hcount : aqBucket c x ≤ (c.aqb.toList.take c.aqn.toNat).length := List.countP_le_length
  have htake : (c.aqb.toList.take c.aqn.toNat).length ≤ c.aqn.toNat := List.length_take_le _ _
  have haqn : c.aqn.toNat < 8 := c.aqn.isLt
  omega

theorem State.Current.storeAq {s : State} (hs : s.Current) (hd : s.outputsDone = true) : s.storeAq.Current := by
  obtain ⟨hp, hh, -⟩ := hs.ordered
  obtain ⟨⟨⟨ht, hpd⟩, hhd⟩, hgd⟩ : ((s.flags.tDone = true ∧ s.flags.pDone = true) ∧ s.flags.hDone = true) ∧
      s.flags.gDone = true := by simpa [State.outputsDone] using hd
  exact
    { hs with
      ordered := ⟨hp, hh, fun _ => ⟨ht, hpd, hhd, hgd⟩⟩
      airQuality := fun _ => Nat.mod_eq_of_lt (aqBucket_lt s.cfg s.aqIndex) }

/-- An update that writes an input of the formulas stales their outputs, one that writes an output writes the current one, and
the others write nothing that `Current` speaks of. -/
theorem Update.current {s t : State} (h : Update s t) (hs : s.Current) : t.Current := by
  cases h with
  | write r v => exact hs.writeReg r v
  | invalidate | acceptCal bs | acceptRaw r => exact current_of_stale rfl
  | storeT tf t h => exact hs.storeT h
  | storeP p hf h => exact hs.storeP hf h
  | storeH x hf h => exact hs.storeH hf h
  | storeG g h => exact hs.storeG h
  | storeAq hd => exact hs.storeAq hd
  | resetBlock => exact current_of_stale (f := Flags.clear) rfl
  | _ => exact { hs with }

/-- Settles O57: every single update keeps `Current`. -/
theorem doneFlagsAreCurrent : Obligations.DoneFlagsAreCurrent := by
  unfold Obligations.DoneFlagsAreCurrent
  exact fun _ _ hs hstep => step_keeps (fun _ _ => Update.current) hstep hs

/-! ### What FLAGS and a narrow register read -/

theorem getLsbD_bitWord (b : Bool) (j : Nat) {k : Nat} (hk : k < 32) : (bitWord b j).getLsbD k = (b && k == j) := by
  cases b with
  | false => simp [bitWord]
  | true =>
    simp only [bitWord, if_true, BitVec.getLsbD_shiftLeft, BitVec.getLsbD_one, hk, Bool.true_and, decide_true]
    grind

/-- Bit k of FLAGS is the k-th flag of R29, and the bits above the seventh read 0. -/
theorem Flags.getLsbD_toWord (f : Flags) {k : Nat} (hk : k < 32) :
    f.toWord.getLsbD k = [f.calValid, f.rawValid, f.tDone, f.pDone, f.hDone, f.gDone, f.aqDone].getD k false := by
  simp only [Flags.toWord, BitVec.getLsbD_or, getLsbD_bitWord _ _ hk]
  match k with
  | 0 | 1 | 2 | 3 | 4 | 5 | 6 => simp
  | k + 7 => simp

/-- A staling event keeps bits 0 and 1 of FLAGS and clears the others (R31). -/
theorem Flags.toWord_stale (f : Flags) : f.stale.toWord = f.toWord &&& 0x03 := by
  obtain ⟨cal, raw, t, p, h, g, aq⟩ := f
  revert cal raw t p h g aq
  decide

/-- A write to a bucket register clears bit 6 of FLAGS alone (R40). -/
theorem Flags.toWord_staleAq (f : Flags) : f.staleAq.toWord = f.toWord &&& 0x3F := by
  obtain ⟨cal, raw, t, p, h, g, aq⟩ := f
  revert cal raw t p h g aq
  decide

theorem getLsbD_lowMask (n : Nat) {k : Nat} (hk : k < 32) : (BitVec.ofNat 32 (2 ^ n - 1)).getLsbD k = decide (k < n) := by
  rw [BitVec.getLsbD_ofNat, Nat.testBit_two_pow_sub_one]
  simp [hk]

/-- A write to FLAGS stores bits 0 and 1 and clears the others (R30). -/
theorem Flags.toWord_ofWrite (v : Word) : (Flags.ofWrite v).toWord = v &&& 0x03 := by
  apply BitVec.eq_of_getLsbD_eq
  intro k hk
  have hmask : (0x03 : Word).getLsbD k = decide (k < 2) := getLsbD_lowMask 2 hk
  rw [Flags.getLsbD_toWord _ hk, BitVec.getLsbD_and, hmask]
  match k with
  | 0 | 1 | 2 | 3 | 4 | 5 | 6 => simp [Flags.ofWrite, Flags.stale]
  | k + 7 => simp

@[simp] theorem getLsbD_lowBits (n : Nat) (v : Word) (k : Nat) :
    (lowBits n v).getLsbD k = (decide (k < n) && v.getLsbD k) := by
  simp [lowBits]

/-- A register of `n` bits reads the `n` low bits of what was written, the rest 0 (R43, R121). -/
theorem zeroExtend_lowBits (n : Nat) (v : Word) : (lowBits n v).zeroExtend 32 = v &&& BitVec.ofNat 32 (2 ^ n - 1) := by
  apply BitVec.eq_of_getLsbD_eq
  intro k hk
  rw [BitVec.zeroExtend, BitVec.getLsbD_setWidth, getLsbD_lowBits, BitVec.getLsbD_and, getLsbD_lowMask n hk]
  simp [hk, Bool.and_comm]

/-! ### What a write by PUT or the host port does to each register -/

theorem readReg_setErrmask (s : State) (m : BitVec 16) (x : Reg) (h : x ≠ .errmask) :
    readReg (s.setErrmask m) x = readReg s x := by
  cases x <;> first | rfl | contradiction

theorem readReg_stale (s : State) (x : Reg) (h : x ≠ .flags) : readReg s.stale x = readReg s x :=
  readReg_setFlags s _ x h

/-- A write changes the register written and, by its side effect, FLAGS; no other register (R120). -/
theorem readReg_writeReg_other (s : State) (r : Reg) (v : Word) (x : Reg) (hx : x ≠ r) (hf : x ≠ .flags) :
    readReg (writeReg s r v) x = readReg s x := by
  cases r with
  | g i => exact (readReg_setG s i v x).trans (if_neg hx)
  | errmask => exact readReg_setErrmask s _ x hx
  | flags => exact readReg_setFlags s _ x hf
  | calbuf i =>
    refine (readReg_stale _ x hf).trans (readReg_storeCalbuf s i _ x fun j hj hij => hx ?_)
    have hval : j = i := Fin.ext (by simp at hij; omega)
    rw [hj, hval]
  | buf i =>
    refine readReg_storeBuf s i _ x fun j hj hij => hx ?_
    have hval : j = i := Fin.ext (by simp at hij; omega)
    rw [hj, hval]
  | cfgAqb i =>
    cases x with
    | cfgAqb j =>
      have hij : i.val ≠ j.val := fun h => hx (by rw [Fin.ext h])
      exact Vector.getElem_set_ne i.isLt j.isLt hij
    | flags => contradiction
    | _ => rfl
  | _ => cases x <;> first | rfl | contradiction

/-- The registers whose write stores bits of the value as they are: neither FLAGS, ERRMASK nor CFG_MAXRETRY, nor a read-only
one (R121). -/
def Reg.storesBits (r : Reg) : Bool := !r.readOnly && r != .errmask && r != .flags && r != .cfgMaxRetry

/-- A byte of BUF or CALBUF that was written holds the low byte. -/
theorem getElem_storeBytes_single {n : Nat} (v : Vector Byte n) (i : Fin n) (b : Byte) : (storeBytes v i [b])[i] = b := by
  simp [storeBytes]

/-- A register that stores bits of the written value reads them back (R121). -/
theorem readReg_writeReg_same (s : State) (r : Reg) (v : Word) (h : r.storesBits = true) :
    readReg (writeReg s r v) r = v &&& storedMask r.index := by
  have hword : v = v &&& 0xFFFFFFFF := (BitVec.and_allOnes (x := v)).symm
  have hbyte := zeroExtend_lowBits 8 v
  cases r with
  | g i =>
    have hmask : storedMask (Reg.index (.g i)) = 0xFFFFFFFF := by revert i; decide
    have hread : readReg (writeReg s (.g i) v) (.g i) = v := Vector.getElem_set_self i.isLt
    rw [hread, hmask]
    exact hword
  | cfgAqb i =>
    have hmask : storedMask (Reg.index (.cfgAqb i)) = 0xFFFFFFFF := by revert i; decide
    have hread : readReg (writeReg s (.cfgAqb i) v) (.cfgAqb i) = v := Vector.getElem_set_self i.isLt
    rw [hread, hmask]
    exact hword
  | calbuf i =>
    have hmask : storedMask (Reg.index (.calbuf i)) = 0xFF := by revert i; decide
    have hread : readReg (writeReg s (.calbuf i) v) (.calbuf i) = (lowBits 8 v).zeroExtend 32 :=
      congrArg (BitVec.zeroExtend 32) (getElem_storeBytes_single s.calbuf i _)
    rw [hread, hmask]
    exact hbyte
  | buf i =>
    have hmask : storedMask (Reg.index (.buf i)) = 0xFF := by revert i; decide
    have hread : readReg (writeReg s (.buf i) v) (.buf i) = (lowBits 8 v).zeroExtend 32 :=
      congrArg (BitVec.zeroExtend 32) (getElem_storeBytes_single s.buf i _)
    rw [hread, hmask]
    exact hbyte
  | timeSec | timeMin | timeHour | timeWday | timeDay | timeMonth | timeYear | rawT | rawP | rawH | rawG => exact hword
  | rawHs => exact zeroExtend_lowBits 1 v
  | cfgOsT | cfgOsP | cfgOsH | cfgFilter | cfgAqn => exact zeroExtend_lowBits 3 v
  | rawGr => exact zeroExtend_lowBits 4 v
  | cfgHeatRes | cfgHeatDur => exact hbyte
  | cfgEpoch => exact zeroExtend_lowBits 16 v
  | _ => contradiction

/-- PUT to a writable register is its write, completed OK (R120). -/
theorem exec_put (r : Reg) (rs : GReg) (s : State) (h : r.readOnly = false) :
    exec (.put r.index rs) s = .next ((writeReg s r (readReg s (.g rs))).complete .ok) := by
  have hput : execPut r.index rs s = finish (done (writeReg s r (s.readG rs))) := by simp [execPut, h]
  exact hput

/-- What PUT to a writable register other than ERRMASK changes: that register, FLAGS and ERR. -/
theorem completesOffBus_put (r : Reg) (v : Word) (s : State) (h : r ≠ .errmask) :
    CompletesOffBus .ok (fun x => x = r ∨ x = .flags) s ((writeReg s r v).complete .ok) := by
  obtain ⟨-, -, -, -, -, -, -, -, hbus, -⟩ := writeReg_frame s r v
  refine ⟨completes_of (r := done (writeReg s r v)) rfl (writeReg_errmask s r v h) (fun x _ _ hx => ?_)
    (writeReg_sameOutside s r v), hbus⟩
  exact readReg_writeReg_other s r v x (fun e => hx (.inl e)) (fun e => hx (.inr e))

/-- A register that stores bits is writable, and completion does not write it. -/
theorem Reg.storesBits_cases {r : Reg} (h : r.storesBits = true) : r.readOnly = false ∧ r ≠ .errmask ∧ r ≠ .err := by
  cases r <;> first | contradiction | exact ⟨rfl, nofun, nofun⟩

/-- PUT to a register that stores bits: it reads the stored bits, and FLAGS what the side effect made of it (R120, R121). -/
theorem put_storesBits (r : Reg) (rs : GReg) (s : State) (h : r.storesBits = true) :
    ∃ t, exec (.put r.index rs) s = .next t ∧ CompletesOffBus .ok (fun x => x = r ∨ x = .flags) s t ∧
      readReg t r = readReg s (.g rs) &&& storedMask r.index ∧
      readReg t .flags = (writeReg s r (readReg s (.g rs))).flags.toWord := by
  obtain ⟨hro, hmask, herr⟩ := Reg.storesBits_cases h
  refine ⟨_, exec_put r rs s hro, completesOffBus_put r _ s hmask, ?_, rfl⟩
  rw [readReg_complete _ _ _ herr hmask]
  exact readReg_writeReg_same s r _ h

/-! ### The side effects of the RAW, CALBUF and bucket registers -/

theorem writeReg_flags_of_staling {r : Reg} (h : stalingIndex r.index) (s : State) (v : Word) :
    r.storesBits = true ∧ (writeReg s r v).flags = s.flags.stale := by
  cases r with
  | rawT | rawP | rawH | rawG | rawGr | rawHs | calbuf i => exact ⟨rfl, rfl⟩
  | g i | cfgAqb i | buf i =>
    exfalso
    unfold stalingIndex at h
    revert i
    decide
  | _ => exact absurd h (by unfold stalingIndex; decide)

theorem writeReg_flags_of_bucket {r : Reg} (h : bucketIndex r.index) (s : State) (v : Word) :
    r.storesBits = true ∧ (writeReg s r v).flags = s.flags.staleAq := by
  cases r with
  | cfgAqb i | cfgAqn => exact ⟨rfl, rfl⟩
  | g i | calbuf i | buf i =>
    exfalso
    unfold bucketIndex at h
    revert i
    decide
  | _ => exact absurd h (by unfold bucketIndex; decide)

/-- Settles O16: each run of registers stores bits and has its own side effect on FLAGS. -/
theorem putMakesResultsStale : Obligations.PutMakesResultsStale := by
  unfold Obligations.PutMakesResultsStale
  intro r rs s
  refine ⟨fun h => ?_, fun h => ?_⟩
  · obtain ⟨hstores, hflags⟩ := writeReg_flags_of_staling h s (readReg s (.g rs))
    obtain ⟨t, hexec, hcompletes, hreg, hread⟩ := put_storesBits r rs s hstores
    exact ⟨t, hexec, hcompletes, hreg, by rw [hread, hflags]; exact Flags.toWord_stale s.flags⟩
  · obtain ⟨hstores, hflags⟩ := writeReg_flags_of_bucket h s (readReg s (.g rs))
    obtain ⟨t, hexec, hcompletes, hreg, hread⟩ := put_storesBits r rs s hstores
    exact ⟨t, hexec, hcompletes, hreg, by rw [hread, hflags]; exact Flags.toWord_staleAq s.flags⟩

/-! ### FLAGS and ERRMASK -/

theorem put_flags (rs : GReg) (s : State) :
    ∃ t, exec (.put 0x0E rs) s = .next t ∧ CompletesOffBus .ok (· = .flags) s t ∧
      readReg t .flags = readReg s (.g rs) &&& 0x03 := by
  have hw := completesOffBus_put .flags (readReg s (.g rs)) s nofun
  simp only [or_self] at hw
  exact ⟨_, exec_put .flags rs s rfl, hw, Flags.toWord_ofWrite _⟩

/-- A write to ERRMASK clears the bits written as 1 and sets none, and completing OK adds none (R25, R272). -/
theorem put_errmask (rs : GReg) (s : State) :
    ∃ t, exec (.put 0x09 rs) s = .next t ∧ t.err = .ok ∧
      (∀ k < 16, t.errmask.getLsbD k = (s.errmask.getLsbD k && !(readReg s (.g rs)).getLsbD k)) ∧
      SameBut (fun r => r = .err ∨ r = .errmask) s t ∧ SameOutside s t ∧ t.bus = s.bus := by
  refine ⟨_, exec_put .errmask rs s rfl, rfl, fun k hk => ?_, fun x hx => ?_, ⟨rfl, rfl, rfl⟩, rfl⟩
  · show ((s.errmask &&& ~~~(lowBits 16 (readReg s (.g rs)))) ||| 0).getLsbD k = _
    simp only [BitVec.ofNat_eq_ofNat, BitVec.or_zero, BitVec.getLsbD_and, BitVec.getLsbD_not, getLsbD_lowBits, hk,
      decide_true, Bool.true_and]
  · have herr : x ≠ .err := fun e => hx (.inl e)
    have hmask : x ≠ .errmask := fun e => hx (.inr e)
    rw [readReg_complete _ _ _ herr hmask]
    exact readReg_setErrmask s _ x hmask

/-- Settles O17. -/
theorem putFlagsAndErrmask : Obligations.PutFlagsAndErrmask := by
  unfold Obligations.PutFlagsAndErrmask
  exact fun rs s => ⟨put_flags rs s, put_errmask rs s⟩

/-! ### The host register port -/

/-- The indices of R21 are exactly those that name a register. -/
theorem assignedIndex_iff (idx : BitVec 8) : assignedIndex idx ↔ (Reg.ofIndex idx).isSome = true := by
  unfold assignedIndex
  revert idx
  decide

theorem ofIndex_of_not_assigned {idx : BitVec 8} (h : ¬ assignedIndex idx) : Reg.ofIndex idx = none := by
  simpa [assignedIndex_iff] using h

theorem readOnlyIndex_index (r : Reg) : readOnlyIndex r.index ↔ r.readOnly = true := by
  unfold readOnlyIndex
  cases r with
  | g i | cfgAqb i | calbuf i | buf i => revert i; decide
  | _ => decide

/-- An index a HostWrite is ignored at names no register or a read-only one (R44). -/
theorem hostWrite_ignored (s : State) {idx : BitVec 8} (v : Word) (h : readOnlyIndex idx ∨ ¬ assignedIndex idx) :
    s.hostWrite idx v = s := by
  unfold State.hostWrite
  cases hr : Reg.ofIndex idx with
  | none => rfl
  | some r =>
    obtain rfl := Reg.index_of_ofIndex hr
    have hro : r.readOnly = true := by
      rcases h with h | h
      · exact (readOnlyIndex_index r).1 h
      · exact absurd ((assignedIndex_iff _).2 (by simp)) h
    exact if_pos hro

/-- Any other index names a writable register. -/
theorem writable_of_index {idx : BitVec 8} (ha : assignedIndex idx) (hro : ¬ readOnlyIndex idx) :
    ∃ r : Reg, r.index = idx ∧ r.readOnly = false := by
  obtain ⟨r, hr⟩ := Option.isSome_iff_exists.1 ((assignedIndex_iff idx).1 ha)
  obtain rfl := Reg.index_of_ofIndex hr
  exact ⟨r, rfl, by simpa [readOnlyIndex_index] using hro⟩

theorem hostWrite_index (s : State) {r : Reg} (h : r.readOnly = false) (v : Word) :
    s.hostWrite r.index v = writeReg s r v := by
  simp [State.hostWrite, h]

/-- A write to a register and a general register being set to the written value come to the same in either order, also where
the register written is that general register. -/
theorem writeReg_setG (s : State) (r : Reg) (rs : GReg) (v : Word) :
    writeReg (s.setG rs v) r v = (writeReg s r v).setG rs v := by
  cases r with
  | g i =>
    have hg : (s.g.set rs v).set i v = (s.g.set i v).set rs v := by
      by_cases h : i = rs
      · rw [h]
      · exact Vector.set_comm v v (fun e => h (Fin.ext e.symm))
    simp only [writeReg, State.setG, hg]
  | _ => rfl

theorem hostRead_of_index (s : State) (r : Reg) : s.hostRead r.index = readReg s r := by
  simp [State.hostRead]

theorem hostRead_of_not_assigned (s : State) {idx : BitVec 8} (h : ¬ assignedIndex idx) : s.hostRead idx = 0 := by
  simp [State.hostRead, ofIndex_of_not_assigned h]

/-- Settles O8: a read, a write that is ignored, and a write that is PUT's without the completion. -/
theorem hostPortReadsAndWrites : Obligations.HostPortReadsAndWrites := by
  unfold Obligations.HostPortReadsAndWrites
  refine ⟨fun s idx rest hp => ?_, fun s idx v rest hp h => ?_, fun s idx v rest hp ha hro => ?_⟩
  · refine ⟨_, step_read hp, fun r hr => ?_, hostRead_of_not_assigned _⟩
    rw [← hr, hostRead_of_index, readReg_setPort]
  · rw [step_write hp, hostWrite_ignored _ v h]
  · obtain ⟨r, rfl, hw⟩ := writable_of_index ha hro
    obtain ⟨-, -, -, -, herr, -⟩ := writeReg_frame (s.setPort rest) r v
    refine ⟨writeReg (s.setPort rest) r v, by rw [step_write hp, hostWrite_index _ hw], herr, fun rs => ?_⟩
    have hread : readReg ((s.setPort rest).setG rs v) (.g rs) = v := by simp [readReg_setG]
    rw [exec_put r rs _ hw, hread, writeReg_setG]
    simp [State.complete]

/-- ERRMASK reads its stored bits but for bit 0 (R25). -/
theorem getLsbD_readReg_errmask (s : State) {k : Nat} (hk : k < 32) :
    (readReg s .errmask).getLsbD k = (decide (1 ≤ k ∧ k ≤ 15) && s.errmask.getLsbD k) := by
  have hmask : ∀ k < 32, (0xFFFE#16).getLsbD k = decide (1 ≤ k ∧ k ≤ 15) := by decide
  simp only [readReg, BitVec.zeroExtend, BitVec.getLsbD_setWidth, BitVec.getLsbD_and, hmask k hk, hk, decide_true,
    Bool.true_and]
  exact Bool.and_comm _ _

/-- Settles O11: the encodings case by case, FLAGS and ERRMASK bit by bit. -/
theorem statusRegistersReadTheirEncodings : Obligations.StatusRegistersReadTheirEncodings := by
  unfold Obligations.StatusRegistersReadTheirEncodings
  intro s
  refine ⟨?_, ?_, fun r d h => ?_, ?_, fun k hk => Flags.getLsbD_toWord s.flags hk, fun k hk => ?_⟩
  · simp only [readReg]
    cases s.err <;> rfl
  · simp only [readReg]
    cases s.rtcState <;> rfl
  · have hdev : readReg s r = d.number.zeroExtend 32 := by
      rcases h with ⟨rfl, rfl⟩ | ⟨rfl, rfl⟩ <;> rfl
    rw [hdev]
    cases d <;> rfl
  · simp only [readReg]
    cases s.snsState <;> rfl
  · exact getLsbD_readReg_errmask s hk

end Sys2Proof.Machine

/-! PROOF. The bus space and its harness (R60-R75): the canonical form of MAP, what a harness access does, what the bus transport
commands do on a Simulated bus, which commands make no transaction, and what FAULT makes of every command. -/

namespace Sys2Proof.Machine

open Sys2Proof.Config (Answer Request RegWrite)

/-! ### MAP stays canonical -/

/-- Only an acknowledged write and the harness's seed write MAP, and both keep its form (R70, R71). -/
theorem Update.map_wf {s t : State} (h : Update s t) (hs : s.bus.map.wf) : t.bus.map.wf := by
  cases h with
  | transact q => exact Bus.wf_after hs q
  | write r v =>
    obtain ⟨-, -, -, -, -, -, -, -, hbus, -⟩ := writeReg_frame s r v
    rw [hbus]
    exact hs
  | harness op =>
    cases op with
    | seed a r v => exact Memory.wf_write hs (busKey_lt a r 0) v
    | _ => exact hs
  | _ => exact hs

/-- Settles O58: every single update keeps the canonical form. -/
theorem memoryStaysCanonical : Obligations.MemoryStaysCanonical := by
  unfold Obligations.MemoryStaysCanonical
  exact fun _ _ hs hstep => step_keeps (fun _ _ => Update.map_wf) hstep hs

/-! ### The harness -/

/-- A byte written at one register of a canonical MAP is that register's, and every other register keeps its own (R70). -/
theorem read_write_busKey {m : Memory} (h : m.wf) (a b : DevAddr) (r q : RegOffset) (v : Byte) :
    (m.write (busKey b q 0) v).read (busKey a r 0) = if a = b ∧ r = q then v else m.read (busKey a r 0) := by
  split
  · next heq =>
    obtain ⟨rfl, rfl⟩ := heq
    exact Memory.read_write_same h _ v
  · next hne =>
    refine Memory.read_write_other m v (fun hkey => hne ?_)
    obtain ⟨hdev, hreg⟩ := (busKey_inj r.isLt q.isLt).1 hkey
    exact ⟨hdev, BitVec.eq_of_toNat_eq hreg⟩

/-- Settles O10: the bus after the access is the one `Bus.harness` makes of it. -/
theorem harnessChangesOnlyTheBus : Obligations.HarnessChangesOnlyTheBus := by
  unfold Obligations.HarnessChangesOnlyTheBus
  intro s op rest hp
  refine ⟨s.bus.harness op, step_harness hp, ?_⟩
  cases op with
  | setPresent devices => exact ⟨rfl, rfl⟩
  | setFault on => exact ⟨rfl, rfl⟩
  | answerNext answers => exact ⟨rfl, rfl⟩
  | seed addr reg value => exact ⟨rfl, rfl, fun hwf a r => read_write_busKey hwf a addr r reg value⟩

/-! ### The bus transport commands, by the answer they get -/

section
variable {addr : DevAddr} {reg : RegOffset} {len : Nat} {s : State}

theorem busOperandsOk_iff : busOperandsOk reg len = true ↔ 1 ≤ len ∧ len ≤ 32 ∧ reg.toNat + len ≤ 256 := by
  simp [busOperandsOk]

/-- I2CWR acknowledged (R132). -/
theorem exec_i2cwr_acked (hop : busOperandsOk reg len = true)
    (hans : s.bus.answer (.write addr reg (s.buf.toList.take len)) ≠ .nak) :
    exec (.i2cwr addr reg len) s =
      .next ((s.setBus (s.bus.after (.write addr reg (s.buf.toList.take len)))).complete .ok) := by
  simp [exec, execI2cwr, memWrite_eq, hop, hans]

/-- I2CWR answered NAK (R133). -/
theorem exec_i2cwr_nak (hop : busOperandsOk reg len = true)
    (hans : s.bus.answer (.write addr reg (s.buf.toList.take len)) = .nak) :
    exec (.i2cwr addr reg len) s =
      .next ((s.setBus (s.bus.after (.write addr reg (s.buf.toList.take len)))).complete .busError) := by
  simp [exec, execI2cwr, memWrite_eq, hop, hans]

/-- I2CRD with an answer of the length asked for (R135). -/
theorem exec_i2crd_accepted (hop : busOperandsOk reg len = true) {bs : List Byte}
    (hans : s.bus.answer (.read addr reg len) = .ack bs) (hlen : bs.length = len) :
    exec (.i2crd addr reg len) s =
      .next (((s.setBus (s.bus.after (.read addr reg len))).storeBuf 0 bs).complete .ok) := by
  simp [exec, execI2crd, memRead_eq, hop, hans, acceptRead, hlen]

/-- I2CRD with a NAK or a short read (R136). -/
theorem exec_i2crd_unaccepted (hop : busOperandsOk reg len = true)
    (hans : ∀ bs, s.bus.answer (.read addr reg len) = .ack bs → bs.length ≠ len) :
    exec (.i2crd addr reg len) s = .next ((s.setBus (s.bus.after (.read addr reg len))).complete .busError) := by
  cases h : s.bus.answer (.read addr reg len) with
  | nak => simp [exec, execI2crd, memRead_eq, hop, h, acceptRead]
  | ack bs => simp [exec, execI2crd, memRead_eq, hop, h, acceptRead, hans bs h]

end

/-- A command that changed nothing but the bus. -/
theorem completes_setBus (s : State) (b : Bus) (e : ErrCode) : Completes e noReg s ((s.setBus b).complete e) :=
  completes_of (r := raise (s.setBus b) e) rfl rfl (fun x _ _ _ => readReg_setBus s b x) ⟨rfl, rfl, rfl⟩

/-- A command that changed the bus and stored a received block in BUF (R135). -/
theorem completes_received (s : State) (b : Bus) {bs : List Byte} {len : Nat} (h : bs.length = len) :
    Completes .ok (bufRange 0 len) s (((s.setBus b).storeBuf 0 bs).complete .ok) := by
  refine completes_of (r := done ((s.setBus b).storeBuf 0 bs)) rfl rfl (fun x _ _ hx => ?_) ⟨rfl, rfl, rfl⟩
  rw [done_eq, readReg_storeBuf, readReg_setBus]
  rintro i rfl ⟨hlo, hhi⟩
  exact hx ⟨i, rfl, hlo, by omega⟩

/-- BUF[i] after a received block was stored. -/
theorem readReg_storeBuf_received (s : State) {bs : List Byte} {i : Fin 32} (hi : i.val < bs.length) :
    readReg (s.storeBuf 0 bs) (.buf i) = bs[i].zeroExtend 32 := by
  have hbyte : (storeBytes s.buf 0 bs)[i.val] = bs[i.val] := by
    simpa using getElem_storeBytes_inside s.buf 0 bs i.val hi (by omega)
  simp [readReg, hbyte]

/-! ### The bus transport commands on a Simulated bus -/

/-- Register `reg + i` of a legal block is byte `i` of the block (R65). -/
theorem busKey_add (a : DevAddr) {r : RegOffset} {i : Nat} (h : r.toNat + i < 256) :
    busKey a (r + BitVec.ofNat 8 i) 0 = busKey a r i := by
  have hadd : (r + BitVec.ofNat 8 i).toNat = r.toNat + i := by
    rw [BitVec.toNat_add, BitVec.toNat_ofNat]
    omega
  rw [busKey_eq _ _ _ (by omega), busKey_eq _ _ _ h, hadd]
  rfl

/-- What a Simulated bus answers NAK it does not store (R71, R72). -/
theorem Bus.simStore_of_nak {b : Bus} {q : Request} (h : b.simAnswer q = .nak) : b.simStore q = b.map := by
  unfold Bus.simStore
  rw [h]
  cases q <;> rfl

theorem Bus.after_map_of_nak {b : Bus} {q : Request} (hk : b.kind = .simulated) (h : b.simAnswer q = .nak) :
    (b.after q).map = b.map := by
  rw [Bus.after_map, if_pos hk, Bus.simStore_of_nak h]

/-- A read leaves MAP alone (R72). -/
theorem Bus.after_map_of_read (b : Bus) (a : DevAddr) (r : RegOffset) (n : Nat) : (b.after (.read a r n)).map = b.map := by
  rw [Bus.after_map]
  split <;> rfl

/-- MAP after a write that a Simulated bus acknowledged (R71). -/
theorem Bus.after_map_of_write {b : Bus} {a : DevAddr} (hk : b.kind = .simulated) (hp : a ∈ b.present)
    (hf : b.fault = false) (r : RegOffset) (bs : List Byte) :
    (b.after (.write a r bs)).map = b.map.writeBlock a r 0 bs := by
  rw [Bus.after_map, if_pos hk]
  unfold Bus.simStore
  rw [Bus.simAnswer_write hp hf]

section
variable {addr : DevAddr} {reg : RegOffset} {len : Nat} {s : State}

/-- I2CWR to a present device: its registers `reg .. reg + len - 1` hold BUF[0..len-1], every other byte register of the bus
space keeps its byte (R71, R132). -/
theorem i2cwr_simPresent (hop : busOperandsOk reg len = true) (hwf : s.bus.map.wf) (hp : s.simPresent addr) :
    ∃ t, exec (.i2cwr addr reg len) s = .next t ∧ Completes .ok noReg s t ∧
      (∀ i : Fin 32, i.val < len → t.deviceByte addr (reg + BitVec.ofNat 8 i) = s.buf[i]) ∧
      ∀ a r, (a = addr → r.toNat < reg.toNat ∨ reg.toNat + len ≤ r.toNat) → t.deviceByte a r = s.deviceByte a r := by
  obtain ⟨hkind, hmem, hfault⟩ := hp
  obtain ⟨-, hlen, hfit⟩ := busOperandsOk_iff.1 hop
  let bs := s.buf.toList.take len
  have hbs : bs.length = len := by simp [bs, hlen]
  have hans : s.bus.answer (.write addr reg bs) ≠ .nak := by
    rw [Bus.answer_simulated hkind, Bus.simAnswer_write hmem hfault]
    nofun
  have hmap := Bus.after_map_of_write hkind hmem hfault reg bs
  refine ⟨_, exec_i2cwr_acked hop hans, completes_setBus s _ .ok, fun i hi => ?_, fun a r hout => ?_⟩
  · show (s.bus.after (.write addr reg bs)).map.read (busKey addr (reg + BitVec.ofNat 8 i) 0) = _
    have hbyte : (s.bus.map.writeBlock addr reg 0 bs).read (busKey addr reg i) = bs[i.val] := by
      simpa only [Nat.zero_add] using Memory.read_writeBlock_same hwf addr reg 0 bs (by omega) i (by omega)
    rw [hmap, busKey_add addr (by omega), hbyte]
    simp [bs]
  · show (s.bus.after (.write addr reg bs)).map.read (busKey a r 0) = s.bus.map.read (busKey a r 0)
    rw [hmap]
    refine Memory.read_writeBlock_other _ _ _ _ _ _ (fun j _ hj hkey => ?_)
    obtain ⟨hdev, hreg⟩ := (busKey_inj r.isLt (by omega)).1 hkey
    have := hout hdev
    omega

/-- I2CRD from a present device: BUF[0..len-1] hold its registers `reg .. reg + len - 1`, MAP is as it was (R72, R135). -/
theorem i2crd_simPresent (hop : busOperandsOk reg len = true) (hp : s.simPresent addr) :
    ∃ t, exec (.i2crd addr reg len) s = .next t ∧ Completes .ok (bufRange 0 len) s t ∧ t.bus.map = s.bus.map ∧
      ∀ i : Fin 32, i.val < len →
        readReg t (.buf i) = (s.deviceByte addr (reg + BitVec.ofNat 8 i)).zeroExtend 32 := by
  obtain ⟨hkind, hmem, hfault⟩ := hp
  obtain ⟨-, -, hfit⟩ := busOperandsOk_iff.1 hop
  let bs := s.bus.map.readBlock addr reg len
  have hbs : bs.length = len := Memory.length_readBlock ..
  have hans : s.bus.answer (.read addr reg len) = .ack bs := by
    rw [Bus.answer_simulated hkind, Bus.simAnswer_read hmem hfault]
  refine ⟨_, exec_i2crd_accepted hop hans hbs, completes_received s _ hbs, Bus.after_map_of_read .., fun i hi => ?_⟩
  rw [readReg_complete _ _ _ (by simp) (by simp), readReg_storeBuf_received _ (by omega)]
  simp [bs, State.deviceByte, busKey_add addr (r := reg) (i := i) (by omega)]

/-- With the device absent or FAULT true both commands fail, and MAP is as it was (R71, R72, R133, R136). -/
theorem i2c_simNak (hop : busOperandsOk reg len = true) (hkind : s.bus.kind = .simulated)
    (hnak : addr ∉ s.bus.present ∨ s.bus.fault = true) :
    (∃ t, exec (.i2cwr addr reg len) s = .next t ∧ Completes .busError noReg s t ∧ t.bus.map = s.bus.map) ∧
      ∃ t, exec (.i2crd addr reg len) s = .next t ∧ Completes .busError noReg s t ∧ t.bus.map = s.bus.map := by
  have hsim : ∀ q, Request.addr q = addr → s.bus.simAnswer q = .nak := fun q hq =>
    Bus.simAnswer_nak (hnak.symm.imp_right (fun h => hq ▸ h))
  have hans : ∀ q, Request.addr q = addr → s.bus.answer q = .nak := fun q hq =>
    (Bus.answer_simulated hkind q).trans (hsim q hq)
  refine ⟨⟨_, exec_i2cwr_nak hop (hans _ rfl), completes_setBus s _ _, Bus.after_map_of_nak hkind (hsim _ rfl)⟩,
    ⟨_, exec_i2crd_unaccepted hop (fun bs h => ?_), completes_setBus s _ _, Bus.after_map_of_nak hkind (hsim _ rfl)⟩⟩
  rw [hans _ rfl] at h
  contradiction

end

/-- Settles O34: the two commands with the device present, and with it absent or FAULT true. -/
theorem simulatedBusStoresAndReturnsBytes : Obligations.SimulatedBusStoresAndReturnsBytes := by
  unfold Obligations.SimulatedBusStoresAndReturnsBytes
  intro addr reg len s hpos hlen hfit hwf
  have hop := busOperandsOk_iff.2 ⟨hpos, hlen, hfit⟩
  exact ⟨fun hp => ⟨i2cwr_simPresent hop hwf hp, i2crd_simPresent hop hp⟩, i2c_simNak hop⟩

/-! ### Commands that make no transaction -/

/-- The command run from `s` completes, and its pseudocode left the bus as it was. -/
def LeavesBus (s : State) (o : Host.Outcome State Fault Refusal) : Prop :=
  ∃ r : Ended, o = finish r ∧ r.1.bus = s.bus

theorem leavesBus_finish {s : State} {r : Ended} (h : r.1.bus = s.bus) : LeavesBus s (finish r) :=
  ⟨r, rfl, h⟩

theorem leavesBus_raise (s : State) (e : ErrCode) : LeavesBus s (finish (raise s e)) :=
  leavesBus_finish rfl

theorem stageT_bus (s : State) : (stageT s).1.bus = s.bus := by
  unfold stageT
  split
  · split <;> rfl
  · rfl

theorem stageP_bus (s : State) : (stageP s).1.bus = s.bus := by
  unfold stageP
  split
  · split <;> rfl
  · rfl

theorem stageH_bus (s : State) : (stageH s).1.bus = s.bus := by
  unfold stageH
  split
  · split <;> rfl
  · rfl

theorem stageG_bus (s : State) : (stageG s).1.bus = s.bus := by
  unfold stageG
  split
  · split <;> rfl
  · rfl

theorem stageAq_bus (s : State) : (stageAq s).1.bus = s.bus := by
  unfold stageAq
  split <;> rfl

theorem Ended.andThen_bus {r : Ended} {f : State → Ended} {b : Bus} (hr : r.1.bus = b) (hf : ∀ u, (f u).1.bus = u.bus) :
    (r.andThen f).1.bus = b := by
  by_cases h : r.2 = .ok
  · rw [Ended.andThen_ok h, hf, hr]
  · rw [Ended.andThen_raised h, hr]

theorem execGet_leavesBus (rd : GReg) (idx : BitVec 8) (s : State) : LeavesBus s (execGet rd idx s) := by
  unfold execGet
  split
  · exact leavesBus_raise s _
  · exact leavesBus_finish rfl

theorem execPut_leavesBus (idx : BitVec 8) (rs : GReg) (s : State) : LeavesBus s (execPut idx rs s) := by
  unfold execPut
  split
  · exact leavesBus_raise s _
  · next r _ =>
    obtain ⟨-, -, -, -, -, -, -, -, hbus, -⟩ := writeReg_frame s r (s.readG rs)
    split
    · exact leavesBus_raise s _
    · exact leavesBus_finish hbus

theorem execBcdenc_leavesBus (rd rs : GReg) (s : State) : LeavesBus s (execBcdenc rd rs s) := by
  unfold execBcdenc
  simp only
  split
  · exact leavesBus_raise s _
  · exact leavesBus_finish rfl

theorem execBcddec_leavesBus (rd rs : GReg) (s : State) : LeavesBus s (execBcddec rd rs s) := by
  unfold execBcddec
  simp only
  split
  · exact leavesBus_raise s _
  · exact leavesBus_finish rfl

theorem execWday_leavesBus (rd : GReg) (s : State) : LeavesBus s (execWday rd s) := by
  unfold execWday
  split
  · exact leavesBus_finish rfl
  · exact leavesBus_raise s _

theorem execTpack_leavesBus (s : State) : LeavesBus s (execTpack s) := by
  unfold execTpack
  split
  · exact leavesBus_finish (State.storeBuf_bus ..)
  · exact leavesBus_raise s _

theorem execCmpall_leavesBus (s : State) : LeavesBus s (execCmpall s) :=
  leavesBus_finish <|
    Ended.andThen_bus (Ended.andThen_bus (Ended.andThen_bus (Ended.andThen_bus (stageT_bus s) stageP_bus) stageH_bus)
      stageG_bus) stageAq_bus

/-- A command for which R321 allows no transaction makes none. -/
theorem exec_leavesBus {i : Instr} (s : State) (h : maxTransactions i s = 0) : LeavesBus s (exec i s) := by
  cases i with
  | get rd idx => exact execGet_leavesBus rd idx s
  | put idx rs => exact execPut_leavesBus idx rs s
  | bcdenc rd rs => exact execBcdenc_leavesBus rd rs s
  | bcddec rd rs => exact execBcddec_leavesBus rd rs s
  | wday rd => exact execWday_leavesBus rd s
  | tpack => exact execTpack_leavesBus s
  | cmpt => exact leavesBus_finish (stageT_bus s)
  | cmpp => exact leavesBus_finish (stageP_bus s)
  | cmph => exact leavesBus_finish (stageH_bus s)
  | cmpg => exact leavesBus_finish (stageG_bus s)
  | cmpaq => exact leavesBus_finish (stageAq_bus s)
  | cmpall => exact execCmpall_leavesBus s
  | nop | ldi rd imm | lui rd imm | tvalid rd | tunpack => exact leavesBus_finish rfl
  | snscfg =>
    obtain ⟨hpos, -⟩ := (paramsOf_legal s.paramSel).cfgWrites_length s.cfg.sensor
    simp only [maxTransactions, State.params] at h
    omega
  | snsacq => simp [maxTransactions] at h
  | rtcrd | rtcset | snsid | snsrst | snscal | i2cwr addr reg len | i2crd addr reg len => contradiction

/-! ### A Simulated bus with FAULT true -/

/-- A bus after a transaction it answered NAK: the log has gained it, nothing else is changed. -/
def Bus.refuse (b : Bus) (q : Request) : Bus := { b with log := ⟨q, .nak⟩ :: b.log }

/-- A Simulated bus that answers nothing (R74). -/
structure Bus.Faulty (b : Bus) : Prop where
  kind : b.kind = .simulated
  fault : b.fault = true

section
variable {s : State}

theorem Bus.Faulty.answer {b : Bus} (h : b.Faulty) (q : Request) : b.answer q = .nak := by
  rw [Bus.answer_simulated h.kind, Bus.simAnswer_nak (.inl h.fault)]

theorem Bus.Faulty.after {b : Bus} (h : b.Faulty) (q : Request) : b.after q = b.refuse q := by
  have hstore : b.simStore q = b.map := Bus.simStore_of_nak (Bus.simAnswer_nak (.inl h.fault))
  simp [Bus.after, Bus.refuse, h.kind, h.answer, hstore]

theorem memWrite_of_faulty (h : s.bus.Faulty) (a : DevAddr) (r : RegOffset) (bs : List Byte) :
    memWrite s a r bs = (false, s.setBus (s.bus.refuse (.write a r bs))) := by
  simp [memWrite_eq, h.answer, h.after]

theorem memRead_of_faulty (h : s.bus.Faulty) (a : DevAddr) (r : RegOffset) (n : Nat) :
    memRead s a r n = (.nak, s.setBus (s.bus.refuse (.read a r n))) := by
  simp [memRead_eq, h.answer, h.after, acceptRead]

/-- The first write of a list is refused; an empty list makes none. -/
theorem writeEach_of_faulty (h : s.bus.Faulty) (a : DevAddr) (l : List RegWrite) :
    writeEach a l s = (true, s) ∨ ∃ q, writeEach a l s = (false, s.setBus (s.bus.refuse q)) := by
  cases l with
  | nil => exact .inl rfl
  | cons w l => exact .inr ⟨.write a w.1 [w.2], by simp [writeEach, memWrite_of_faulty h]⟩

/-- The first poll is refused; with none allowed none is made. -/
theorem pollReady_of_faulty (h : s.bus.Faulty) (k : Nat) :
    pollReady k s = (.timeout, s) ∨
      ∃ q, (pollReady k s).1 = .busFailure ∧ (pollReady k s).2.bus = s.bus.refuse q := by
  cases k with
  | zero => exact .inl rfl
  | succ k =>
    refine .inr ⟨.read s.params.snsAddr s.params.statusReg 1, ?_, ?_⟩ <;>
      simp [pollReady, memRead_of_faulty h, State.countPoll]

/-! ### Commands on a Simulated bus with FAULT true -/

/-- Pseudocode run from a state with bus `b` made no transaction, or one that was refused and raised BusError for it. -/
def Ended.RefusedOn (b : Bus) (r : Ended) : Prop := r.1.bus = b ∨ ∃ q, r.1.bus = b.refuse q ∧ r.2 = .busError

/-- The command run from `s` completes, having made no transaction or having failed with BusError on its only one. -/
def CompletesRefused (s : State) (o : Host.Outcome State Fault Refusal) : Prop :=
  ∃ r : Ended, o = finish r ∧ r.RefusedOn s.bus

theorem LeavesBus.refused {o : Host.Outcome State Fault Refusal} (h : LeavesBus s o) :
    CompletesRefused s o := by
  obtain ⟨r, ho, hbus⟩ := h
  exact ⟨r, ho, .inl hbus⟩

theorem completesRefused_raise (s : State) (e : ErrCode) : CompletesRefused s (finish (raise s e)) :=
  (leavesBus_raise s e).refused

/-- A command that ends in BusError on its first transaction. -/
theorem completesRefused_busError {u : State} {q : Request} (h : u.bus = s.bus.refuse q) :
    CompletesRefused s (finish (raise u .busError)) :=
  ⟨_, rfl, .inr ⟨q, h, rfl⟩⟩

theorem execRtcrd_refused (h : s.bus.Faulty) : CompletesRefused s (execRtcrd s) := by
  simp only [execRtcrd, memRead_of_faulty h]
  exact completesRefused_busError rfl

theorem rtcWrite_refused (h : s.bus.Faulty) : CompletesRefused s (finish (rtcWrite s)) := by
  have hstage : (rtcStage s).bus.Faulty := h
  simp only [rtcWrite, memWrite_of_faulty hstage]
  exact completesRefused_busError rfl

theorem execRtcset_refused (h : s.bus.Faulty) : CompletesRefused s (execRtcset s) := by
  unfold execRtcset
  split
  · split
    · exact rtcWrite_refused h
    · exact completesRefused_raise s _
  · exact completesRefused_raise s _

theorem execSnsid_refused (h : s.bus.Faulty) : CompletesRefused s (execSnsid s) := by
  have hpowered : (s.setSns .powerOn s.snsDev).bus.Faulty := h
  simp only [execSnsid, memRead_of_faulty hpowered]
  exact completesRefused_busError rfl

theorem execSnsrst_refused (h : s.bus.Faulty) : CompletesRefused s (execSnsrst s) := by
  have hflags : (s.setFlags s.flags.invalidate).bus.Faulty := h
  simp only [execSnsrst, memWrite_of_faulty hflags]
  split
  · exact completesRefused_busError rfl
  · exact completesRefused_raise s _

theorem execSnscfg_refused (h : s.bus.Faulty) : CompletesRefused s (execSnscfg s) := by
  unfold execSnscfg
  simp only
  split
  · rcases writeEach_of_faulty h s.params.snsAddr (s.params.cfgWrites s.cfg.sensor) with hw | ⟨q, hw⟩
    · rw [hw]
      exact (leavesBus_finish rfl).refused
    · rw [hw]
      exact completesRefused_busError rfl
  · exact completesRefused_raise s _

theorem execSnscal_refused (h : s.bus.Faulty) : CompletesRefused s (execSnscal s) := by
  simp only [execSnscal, memRead_of_faulty h]
  split
  · exact completesRefused_busError rfl
  · exact completesRefused_raise s _

/-- SNSACQ after trigger writes that made no transaction: a refused poll, or a timeout without one. -/
theorem snsPollThenRead_refused (h : s.bus.Faulty) : CompletesRefused s (finish (snsPollThenRead s)) := by
  unfold snsPollThenRead
  simp only
  rcases pollReady_of_faulty h s.cfg.maxRetry.toNat with hp | ⟨q, hend, hbus⟩
  · rw [hp]
    exact (leavesBus_finish rfl).refused
  · rw [hend]
    exact completesRefused_busError hbus

theorem execSnsacq_refused (h : s.bus.Faulty) : CompletesRefused s (execSnsacq s) := by
  have hpolls : (s.setPolls 0).bus.Faulty := h
  unfold execSnsacq
  simp only
  split
  · rcases writeEach_of_faulty hpolls s.params.snsAddr (s.params.triggerWrites s.cfg.sensor) with hw | ⟨q, hw⟩
    · rw [hw]
      exact snsPollThenRead_refused hpolls
    · rw [hw]
      exact completesRefused_busError rfl
  · exact completesRefused_raise s _

theorem execI2cwr_refused (h : s.bus.Faulty) (addr : DevAddr) (reg : RegOffset) (len : Nat) :
    CompletesRefused s (execI2cwr addr reg len s) := by
  simp only [execI2cwr, memWrite_of_faulty h]
  split
  · exact completesRefused_busError rfl
  · exact completesRefused_raise s _

theorem execI2crd_refused (h : s.bus.Faulty) (addr : DevAddr) (reg : RegOffset) (len : Nat) :
    CompletesRefused s (execI2crd addr reg len s) := by
  simp only [execI2crd, memRead_of_faulty h]
  split
  · exact completesRefused_busError rfl
  · exact completesRefused_raise s _

/-- No command gets past its first transaction (R74, R275). -/
theorem exec_refused (i : Instr) (h : s.bus.Faulty) : CompletesRefused s (exec i s) := by
  cases i with
  | rtcrd => exact execRtcrd_refused h
  | rtcset => exact execRtcset_refused h
  | snsid => exact execSnsid_refused h
  | snsrst => exact execSnsrst_refused h
  | snscfg => exact execSnscfg_refused h
  | snscal => exact execSnscal_refused h
  | snsacq => exact execSnsacq_refused h
  | i2cwr addr reg len => exact execI2cwr_refused h addr reg len
  | i2crd addr reg len => exact execI2crd_refused h addr reg len
  | _ => exact (exec_leavesBus s rfl).refused

end

/-- Settles O35: a command that made a transaction made one, and raised BusError for it. -/
theorem faultMakesEveryTransactionFail : Obligations.FaultMakesEveryTransactionFail := by
  unfold Obligations.FaultMakesEveryTransactionFail
  intro i s hkind hfault
  obtain ⟨r, ho, hr⟩ := exec_refused i (s := s) ⟨hkind, hfault⟩
  exact ⟨_, ho, hr⟩

end Sys2Proof.Machine

/-! PROOF. The command word a step runs (R60, R80, R95): the decoder reads back from the word of a well-formed command its row and
its operands, and a step whose next access is that word is the command. -/

namespace Sys2Proof

open Laws.EncodingHead (Statement head_none head_regImm head_regReg head_regOnly head_regIdx head_bus)

/-! ### The operands of an encoded word (R91, R93) -/

/-- A field of type `BitVec n` read back from a word's number. -/
theorem field_ofNat {v lo n : Nat} {x : BitVec n} (hv : v < 2 ^ 32) (hx : v / 2 ^ lo % 2 ^ n = x.toNat) :
    (BitVec.ofNat 32 v).extractLsb' lo n = x :=
  BitVec.eq_of_toNat_eq ((toNat_field_ofNat v lo n hv).trans hx)

theorem fieldRd_ofNat {v : Nat} {r : GReg} (hv : v < 2 ^ 32) (hr : v / 2 ^ 21 % 2 ^ 3 = r.val) :
    fieldRd (BitVec.ofNat 32 v) = r :=
  Fin.ext ((toNat_field_ofNat v 21 3 hv).trans hr)

theorem fieldRs_ofNat {v : Nat} {r : GReg} (hv : v < 2 ^ 32) (hr : v / 2 ^ 18 % 2 ^ 3 = r.val) :
    fieldRs (BitVec.ofNat 32 v) = r :=
  Fin.ext ((toNat_field_ofNat v 18 3 hv).trans hr)

section
variable (op : Opcode) (rd rs : GReg)

theorem fields_encodeRegImm (imm : BitVec 16) :
    fieldRd (encodeRegImm op rd imm) = rd ∧ fieldImm (encodeRegImm op rd imm) = imm := by
  have hop := op.byte.isLt
  have himm := imm.isLt
  unfold encodeRegImm atBit
  exact ⟨fieldRd_ofNat (by omega) (by omega), field_ofNat (by omega) (by omega)⟩

theorem fields_encodeRegReg : fieldRd (encodeRegReg op rd rs) = rd ∧ fieldRs (encodeRegReg op rd rs) = rs := by
  have hop := op.byte.isLt
  unfold encodeRegReg atBit
  exact ⟨fieldRd_ofNat (by omega) (by omega), fieldRs_ofNat (by omega) (by omega)⟩

theorem fieldRd_encodeRegOnly : fieldRd (encodeRegOnly op rd) = rd := by
  have hop := op.byte.isLt
  unfold encodeRegOnly atBit
  exact fieldRd_ofNat (by omega) (by omega)

theorem fields_encodeRegIdx (idx : BitVec 8) :
    fieldRd (encodeRegIdx op rd idx) = rd ∧ fieldLowByte (encodeRegIdx op rd idx) = idx := by
  have hop := op.byte.isLt
  have hidx := idx.isLt
  unfold encodeRegIdx atBit
  exact ⟨fieldRd_ofNat (by omega) (by omega), field_ofNat (by omega) (by omega)⟩

/-- The byte count comes back where it fits its six bits. -/
theorem fields_encodeBus (addr : DevAddr) (reg : RegOffset) {len : Nat} (hlen : len < 64) :
    fieldAddr (encodeBus op addr reg len) = addr ∧ fieldLowByte (encodeBus op addr reg len) = reg ∧
      fieldLen (encodeBus op addr reg len) = len := by
  have hop := op.byte.isLt
  have haddr := addr.isLt
  have hreg := reg.isLt
  unfold encodeBus atBit
  exact ⟨field_ofNat (by omega) (by omega), field_ofNat (by omega) (by omega),
    (toNat_field_ofNat _ 8 6 (by omega)).trans (by omega)⟩

end

/-! ### Decoding an encoded command (R95) -/

/-- The word of a command names the command's row and keeps its format's reserved bits 0. -/
theorem encodingHead (i : Instr) : Statement i := by
  cases i with
  | ldi rd imm | lui rd imm => exact head_regImm _ rd imm
  | get rd idx | put idx rd => exact head_regIdx _ rd idx
  | bcdenc rd rs | bcddec rd rs => exact head_regReg _ rd rs
  | wday rd | tvalid rd => exact head_regOnly _ rd
  | i2cwr addr reg len | i2crd addr reg len => exact head_bus _ addr reg len
  | _ => exact head_none _

/-- The decoder takes from a well-formed command's word the operands put there. -/
theorem operands_encode {i : Instr} (h : i.wellFormed = true) : i.opcode.operands (encode i) = i := by
  cases i with
  | ldi rd imm | lui rd imm => simp only [encode, Instr.opcode, Opcode.operands, fields_encodeRegImm]
  | get rd idx | put idx rd => simp only [encode, Instr.opcode, Opcode.operands, fields_encodeRegIdx]
  | bcdenc rd rs | bcddec rd rs => simp only [encode, Instr.opcode, Opcode.operands, fields_encodeRegReg]
  | wday rd | tvalid rd => simp only [encode, Instr.opcode, Opcode.operands, fieldRd_encodeRegOnly]
  | i2cwr addr reg len | i2crd addr reg len =>
    have hlen : len < 64 := of_decide_eq_true h
    simp only [encode, Instr.opcode, Opcode.operands, fields_encodeBus _ addr reg hlen]
  | _ => rfl

theorem decode_encode {i : Instr} (h : i.wellFormed = true) : decode (encode i) = .ok i := by
  obtain ⟨hrow, hclear⟩ := encodingHead i
  simp [decode, hrow, hclear, operands_encode h]

end Sys2Proof

namespace Sys2Proof.Machine

/-! ### The command word a step runs -/

/-- A word that decodes runs as the command it decodes to (R95). -/
theorem runWord_of_decode {w : Word} {i : Instr} (h : decode w = .ok i) (s : State) : runWord w s = exec i s := by
  simp [runWord, h]

/-- A 32-bit word given as a number is that word, the host's next access. -/
theorem withFetchWord_toNat (s : State) (w : Word) : s.withFetchWord 32 w.toNat = s.issueNext w := by
  rw [State.withFetchWord, Nat.mod_eq_of_lt w.isLt, BitVec.ofNat_toNat, BitVec.setWidth_eq]

/-- Settles O5: the step of a HostIssue, and the decoder's answer to an encoded command. -/
theorem stepRunsTheDecodedCommand : Obligations.StepRunsTheDecodedCommand := by
  unfold Obligations.StepRunsTheDecodedCommand
  refine ⟨fun s w rest i hp hdec => ?_, fun s i hwf => ?_⟩
  · rw [step_issue hp, runWord_of_decode hdec]
  · have hp : (s.issueNext (encode i)).port = .issue (encode i) :: s.port := rfl
    rw [withFetchWord_toNat, step_issue hp, runWord_of_decode (decode_encode hwf)]
    rfl

end Sys2Proof.Machine

/-! PROOF. The encoding (R90-R100): the decoder and the encoder are inverse to each other, the worked examples, the illegal words,
and what the expansion of each pseudo-command does. -/

namespace Sys2Proof

open Sys2Proof.Machine (reservedMask illegalWord)

/-! ### The decoder's answer (R95) -/

theorem Opcode.byte_injective : Function.Injective Opcode.byte := fun a b h =>
  Option.some.inj (by rw [← Opcode.ofByte_byte a, h, Opcode.ofByte_byte])

/-- A word decodes where its opcode byte is a row's and the row's reserved bits are 0; its fields are the operands. -/
theorem decode_eq_ok_iff {w : Word} {i : Instr} :
    decode w = .ok i ↔
      ∃ op : Opcode, op.byte = opcodeByte w ∧ op.format.reservedClear w = true ∧ op.operands w = i := by
  constructor
  · intro h
    unfold decode at h
    split at h
    · contradiction
    · next op hrow =>
      split at h
      · next hclear => exact ⟨op, Opcode.byte_of_ofByte hrow, hclear, Except.ok.inj h⟩
      · contradiction
  · rintro ⟨op, hrow, hclear, rfl⟩
    simp [decode, ← hrow, hclear]

/-! ### Encoding the fields of a word (R91)

A word is the sum of its opcode byte, its fields and its reserved bits, each at its place; the encoder adds up all but the
reserved bits, which are 0. -/

theorem ofNat_eq_of_toNat {w : Word} {v : Nat} (h : v = w.toNat) : BitVec.ofNat 32 v = w := by
  rw [h, BitVec.ofNat_toNat, BitVec.setWidth_eq]

theorem val_fieldRd (w : Word) : (fieldRd w).val = w.toNat / 2 ^ 21 % 2 ^ 3 := toNat_field w 21 3

theorem val_fieldRs (w : Word) : (fieldRs w).val = w.toNat / 2 ^ 18 % 2 ^ 3 := toNat_field w 18 3

theorem fieldLen_eq (w : Word) : fieldLen w = w.toNat / 2 ^ 8 % 2 ^ 6 := toNat_field w 8 6

theorem fieldLen_lt (w : Word) : fieldLen w < 64 := (w.extractLsb' 8 6).isLt

/-- A run of reserved bits that is clear, as a number. -/
theorem toNat_of_clear {w : Word} {lo n : Nat} (h : (w.extractLsb' lo n == 0) = true) : w.toNat / 2 ^ lo % 2 ^ n = 0 := by
  rw [← toNat_field, beq_iff_eq.1 h]
  rfl

section
variable {op : Opcode} {w : Word} (hop : op.byte = opcodeByte w)
include hop

theorem toNat_byte_of_row : op.byte.toNat = w.toNat / 2 ^ 24 := by
  have hw := w.isLt
  rw [hop, opcodeByte, toNat_field]
  omega

theorem encodeNone_fields (h : Format.reservedClear .none w = true) : encodeNone op = w := by
  have hclear := toNat_of_clear h
  refine ofNat_eq_of_toNat ?_
  simp only [atBit, toNat_byte_of_row hop]
  omega

theorem encodeRegImm_fields (h : Format.reservedClear .regImm w = true) :
    encodeRegImm op (fieldRd w) (fieldImm w) = w := by
  have hclear := toNat_of_clear h
  refine ofNat_eq_of_toNat ?_
  simp only [atBit, toNat_byte_of_row hop, val_fieldRd, fieldImm, toNat_field]
  omega

theorem encodeRegReg_fields (h : Format.reservedClear .regReg w = true) :
    encodeRegReg op (fieldRd w) (fieldRs w) = w := by
  have hclear := toNat_of_clear h
  refine ofNat_eq_of_toNat ?_
  simp only [atBit, toNat_byte_of_row hop, val_fieldRd, val_fieldRs]
  omega

theorem encodeRegOnly_fields (h : Format.reservedClear .regOnly w = true) : encodeRegOnly op (fieldRd w) = w := by
  have hclear := toNat_of_clear h
  refine ofNat_eq_of_toNat ?_
  simp only [atBit, toNat_byte_of_row hop, val_fieldRd]
  omega

theorem encodeRegIdx_fields (h : Format.reservedClear .regIdx w = true) :
    encodeRegIdx op (fieldRd w) (fieldLowByte w) = w := by
  have hclear := toNat_of_clear h
  refine ofNat_eq_of_toNat ?_
  simp only [atBit, toNat_byte_of_row hop, val_fieldRd, fieldLowByte, toNat_field]
  omega

theorem encodeBus_fields (h : Format.reservedClear .bus w = true) :
    encodeBus op (fieldAddr w) (fieldLowByte w) (fieldLen w) = w := by
  have hclear := toNat_of_clear h
  refine ofNat_eq_of_toNat ?_
  simp only [atBit, toNat_byte_of_row hop, fieldAddr, fieldLowByte, toNat_field, fieldLen_eq]
  omega

/-- The command that a row takes from a word without reserved bits has that word, whatever the row's format. -/
theorem encode_operands (h : op.format.reservedClear w = true) : encode (op.operands w) = w := by
  cases op with
  | ldi | lui => exact encodeRegImm_fields hop h
  | get | put => exact encodeRegIdx_fields hop h
  | bcdenc | bcddec => exact encodeRegReg_fields hop h
  | wday | tvalid => exact encodeRegOnly_fields hop h
  | i2cwr | i2crd => exact encodeBus_fields hop h
  | _ => exact encodeNone_fields hop h

end

/-- A byte count taken from a word fits its field (R91). -/
theorem wellFormed_operands (op : Opcode) (w : Word) : (op.operands w).wellFormed = true := by
  cases op with
  | i2cwr | i2crd => exact decide_eq_true (fieldLen_lt w)
  | _ => rfl

/-- Settles O1: the word's head selects the command's row, and its fields give the operands back. -/
theorem decodeInvertsEncode : Obligations.DecodeInvertsEncode := by
  unfold Obligations.DecodeInvertsEncode
  exact fun _ hwf => decode_encode hwf

/-- Settles O2: with the opcode byte the row's and the reserved bits 0, the fields add up to the word. -/
theorem encodeInvertsDecode : Obligations.EncodeInvertsDecode := by
  unfold Obligations.EncodeInvertsDecode
  intro w i hdec
  obtain ⟨op, hop, hclear, rfl⟩ := decode_eq_ok_iff.1 hdec
  exact ⟨wellFormed_operands op w, encode_operands hop hclear⟩

/-- Settles O3: the nine words by evaluating the encoder; that they decode is `decode_encode`. -/
theorem workedExamplesDecode : Obligations.WorkedExamplesDecode := by
  unfold Obligations.WorkedExamplesDecode
  intro p hp
  have hword : p.1.wellFormed = true ∧ encode p.1 = p.2 := by
    revert p
    decide
  obtain ⟨hwf, henc⟩ := hword
  exact ⟨henc, henc ▸ decode_encode hwf⟩

/-! ### The illegal words (R96) -/

/-- A run of bits is 0 exactly where the word has no 1 under the run's mask. -/
theorem extractLsb'_eq_zero_iff {w mask : Word} {lo n : Nat} (hfit : lo + n ≤ 32)
    (hmask : ∀ k < 32, mask.getLsbD k = decide (lo ≤ k ∧ k < lo + n)) : w.extractLsb' lo n = 0 ↔ w &&& mask = 0 := by
  constructor
  · intro h
    apply BitVec.eq_of_getLsbD_eq
    intro k hk
    have hbit : (w.extractLsb' lo n).getLsbD (k - lo) = false := by simp [h]
    rw [BitVec.getLsbD_and, hmask k hk]
    grind
  · intro h
    apply BitVec.eq_of_getLsbD_eq
    intro j hj
    have hbit : (w &&& mask).getLsbD (lo + j) = false := by simp [h]
    rw [BitVec.getLsbD_and, hmask _ (by omega)] at hbit
    grind

/-- The decoder's test of the reserved bits is R91's: no bit of the format's mask is 1. -/
theorem reservedClear_iff (f : Format) (w : Word) : f.reservedClear w = true ↔ w &&& reservedMask f = 0 := by
  cases f <;> exact beq_iff_eq.trans (extractLsb'_eq_zero_iff (by decide) (by decide))

theorem illegalWord_iff (w : Word) : illegalWord w ↔ ∀ i : Instr, decode w ≠ .ok i := by
  constructor
  · intro hill i hdec
    obtain ⟨op, hrow, hclear, -⟩ := decode_eq_ok_iff.1 hdec
    rcases hill with hnone | ⟨op', hrow', hset⟩
    · exact hnone op hrow
    · obtain rfl : op' = op := Opcode.byte_injective (hrow'.trans hrow.symm)
      exact hset ((reservedClear_iff _ w).1 hclear)
  · intro hdec
    by_cases hrow : ∃ op : Opcode, op.byte = opcodeByte w
    · obtain ⟨op, hop⟩ := hrow
      exact .inr ⟨op, hop, fun h => hdec _ (decode_eq_ok_iff.2 ⟨op, hop, (reservedClear_iff _ w).2 h, rfl⟩)⟩
    · exact .inl fun op hop => hrow ⟨op, hop⟩

end Sys2Proof

namespace Sys2Proof.Machine

theorem runWord_of_illegal {w : Word} (h : illegalWord w) (s : State) : runWord w s = illegalCommand s := by
  unfold runWord
  split
  · next i hdec => exact absurd hdec ((illegalWord_iff w).1 h i)
  · rfl

/-- Settles O4: `illegalWord_iff`, the two words of R96 by their opcode bytes, and a step that only completes. -/
theorem illegalWordsChangeOnlyErrors : Obligations.IllegalWordsChangeOnlyErrors := by
  unfold Obligations.IllegalWordsChangeOnlyErrors
  refine ⟨illegalWord_iff, .inl (Opcode.ofByte_none (by decide)), .inl (Opcode.ofByte_none (by decide)),
    fun s w rest hp hill => ?_⟩
  rw [step_issue hp, runWord_of_illegal hill]
  exact ⟨_, rfl, completes_raise _ _⟩

end Sys2Proof.Machine

namespace Sys2Proof.Machine

/-! ### Commands one after another (R80) -/

theorem runCommands_cons {i : Instr} {s t : State} (h : exec i s = .next t) (is : List Instr) :
    runCommands (i :: is) s = runCommands is t := by
  simp [runCommands, h]

theorem runCommands_single {i : Instr} {s t : State} (h : exec i s = .next t) : runCommands [i] s = .next t :=
  runCommands_cons h []

theorem SameBut.mono {W W' : Reg → Prop} {s t : State} (h : SameBut W s t) (hW : ∀ r, W r → W' r) : SameBut W' s t :=
  fun r hr => h r fun hw => hr (hW r hw)

theorem SameBut.trans {W : Reg → Prop} {s t u : State} (hst : SameBut W s t) (htu : SameBut W t u) : SameBut W s u :=
  fun r hr => (htu r hr).trans (hst r hr)

/-- Completing OK leaves ERRMASK's bits as they were, so the second command's record is the record of both (R272). -/
theorem Recorded.after_ok {e : ErrCode} {s t u : State} (hst : Recorded .ok s t) (htu : Recorded e t u) : Recorded e s u := by
  obtain ⟨-, hbits⟩ := hst
  obtain ⟨herr, hbits'⟩ := htu
  refine ⟨herr, fun k hk => ?_⟩
  rw [hbits' k hk, hbits k hk]
  simp

theorem CompletesOffBus.mono {e : ErrCode} {W W' : Reg → Prop} {s t : State} (h : CompletesOffBus e W s t)
    (hW : ∀ r, W r → W' r) : CompletesOffBus e W' s t := by
  obtain ⟨⟨hrec, hsame, hout⟩, hbus⟩ := h
  exact ⟨⟨hrec, hsame.mono fun r => Or.imp_right (Or.imp_right (hW r)), hout⟩, hbus⟩

/-- A command after one that completed OK. -/
theorem CompletesOffBus.after_ok {e : ErrCode} {W : Reg → Prop} {s t u : State} (hst : CompletesOffBus .ok W s t)
    (htu : CompletesOffBus e W t u) : CompletesOffBus e W s u := by
  obtain ⟨⟨hrec, hsame, hout⟩, hbus⟩ := hst
  obtain ⟨⟨hrec', hsame', hout'⟩, hbus'⟩ := htu
  exact ⟨⟨hrec.after_ok hrec', hsame.trans hsame', hout.trans hout'⟩, hbus'.trans hbus⟩

/-! ### The commands that the expansions are made of (R112-R120) -/

/-- What a command that only writes a general register does: LDI, LUI and GET of an assigned index. -/
theorem completesOffBus_setG (rd : GReg) (v : Word) (s : State) :
    CompletesOffBus .ok (· = .g rd) s ((s.setG rd v).complete .ok) :=
  ⟨completes_of (r := done (s.setG rd v)) rfl rfl (fun x _ _ hx => (readReg_setG s rd v x).trans (if_neg hx))
    ⟨rfl, rfl, rfl⟩, rfl⟩

theorem readReg_setG_complete (rd : GReg) (v : Word) (s : State) (e : ErrCode) :
    readReg ((s.setG rd v).complete e) (.g rd) = v := by
  rw [readReg_complete _ _ _ (by simp) (by simp), readReg_setG, if_pos rfl]

theorem exec_ldi (rd : GReg) (imm : BitVec 16) (s : State) :
    ∃ t, exec (.ldi rd imm) s = .next t ∧ CompletesOffBus .ok (· = .g rd) s t ∧ readReg t (.g rd) = imm.zeroExtend 32 :=
  ⟨_, rfl, completesOffBus_setG rd _ s, readReg_setG_complete rd _ s _⟩

theorem exec_lui (rd : GReg) (imm : BitVec 16) (s : State) :
    ∃ t, exec (.lui rd imm) s = .next t ∧ CompletesOffBus .ok (· = .g rd) s t ∧
      readReg t (.g rd) = imm ++ lowBits 16 (readReg s (.g rd)) :=
  ⟨_, rfl, completesOffBus_setG rd _ s, readReg_setG_complete rd _ s _⟩

theorem exec_get (rd : GReg) (r : Reg) (s : State) :
    ∃ t, exec (.get rd r.index) s = .next t ∧ CompletesOffBus .ok (· = .g rd) s t ∧ readReg t (.g rd) = readReg s r := by
  have hget : execGet rd r.index s = finish (done (s.setG rd (readReg s r))) := by simp [execGet]
  exact ⟨_, hget, completesOffBus_setG rd _ s, readReg_setG_complete rd _ s _⟩

theorem writeReg_flags_of_plain {r : Reg} (h : plainIndex r.index) (s : State) (v : Word) :
    r.storesBits = true ∧ (writeReg s r v).flags = s.flags := by
  cases r with
  | g i | buf i => exact ⟨rfl, rfl⟩
  | timeSec | timeMin | timeHour | timeWday | timeDay | timeMonth | timeYear => exact ⟨rfl, rfl⟩
  | cfgEpoch | cfgOsT | cfgOsP | cfgOsH | cfgFilter | cfgHeatRes | cfgHeatDur => exact ⟨rfl, rfl⟩
  | cfgAqb i | calbuf i =>
    exfalso
    unfold plainIndex at h
    revert i
    decide
  | _ => exact absurd h (by unfold plainIndex; decide)

/-- PUT to a register without side effect writes that register alone, FLAGS included in what is kept (R120, R121). -/
theorem put_plain {r : Reg} (h : plainIndex r.index) (rs : GReg) (s : State) :
    ∃ t, exec (.put r.index rs) s = .next t ∧ CompletesOffBus .ok (· = r) s t ∧
      readReg t r = readReg s (.g rs) &&& storedMask r.index := by
  obtain ⟨hstores, hflags⟩ := writeReg_flags_of_plain h s (readReg s (.g rs))
  obtain ⟨t, hexec, ⟨⟨hrec, hsame, hout⟩, hbus⟩, hreg, hread⟩ := put_storesBits r rs s hstores
  refine ⟨t, hexec, ⟨⟨hrec, fun x hx => ?_, hout⟩, hbus⟩, hreg⟩
  by_cases hxf : x = .flags
  · rw [hxf, hread, hflags]
    rfl
  · exact hsame x (by grind)

/-! ### The halves of an immediate (R99) -/

theorem lowBits_zeroExtend (x : BitVec 16) : lowBits 16 (x.zeroExtend 32) = x := by
  apply BitVec.eq_of_getLsbD_eq
  intro k hk
  rw [getLsbD_lowBits, BitVec.zeroExtend]
  grind

theorem zeroExtend_low_half {v : Word} (h : v.extractLsb' 16 16 = 0) : (v.extractLsb' 0 16).zeroExtend 32 = v :=
  calc
    (v.extractLsb' 0 16).zeroExtend 32 = 0#16 ++ v.extractLsb' 0 16 := BitVec.setWidth_eq_append (by decide)
    _ = v.extractLsb' 16 16 ++ v.extractLsb' 0 16 := congrArg (· ++ v.extractLsb' 0 16) h.symm
    _ = v := BitVec.extractLsb'_append_extractLsb'

/-! ### The pseudo-commands (R99) -/

/-- LI is LDI alone where the upper half is 0, and LUI puts the upper half over LDI's value where it is not. -/
theorem runCommands_li (rd : GReg) (v : Word) (s : State) :
    ∃ t, runCommands (Pseudo.li rd v).expand s = .next t ∧ CompletesOffBus .ok (· = .g rd) s t ∧ readReg t (.g rd) = v := by
  obtain ⟨t, hldi, hcompletes, hlow⟩ := exec_ldi rd (v.extractLsb' 0 16) s
  by_cases hupper : v.extractLsb' 16 16 = 0
  · rw [Pseudo.expand, if_pos hupper]
    exact ⟨t, runCommands_single hldi, hcompletes, hlow.trans (zeroExtend_low_half hupper)⟩
  · obtain ⟨u, hlui, hcompletes', hword⟩ := exec_lui rd (v.extractLsb' 16 16) t
    rw [Pseudo.expand, if_neg hupper]
    refine ⟨u, (runCommands_cons hldi _).trans (runCommands_single hlui), hcompletes.after_ok hcompletes', ?_⟩
    rw [hword, hlow, lowBits_zeroExtend, BitVec.extractLsb'_append_extractLsb']

theorem runCommands_mov (rd rs : GReg) (s : State) :
    ∃ t, runCommands (Pseudo.mov rd rs).expand s = .next t ∧ CompletesOffBus .ok (· = .g rd) s t ∧
      readReg t (.g rd) = readReg s (.g rs) := by
  obtain ⟨t, hget, hcopied⟩ := exec_get rd (.g rs) s
  exact ⟨t, runCommands_single hget, hcopied⟩

theorem runCommands_clr (rd : GReg) (s : State) :
    ∃ t, runCommands (Pseudo.clr rd).expand s = .next t ∧ CompletesOffBus .ok (· = .g rd) s t ∧ readReg t (.g rd) = 0 := by
  obtain ⟨t, hldi, hcleared⟩ := exec_ldi rd 0 s
  exact ⟨t, runCommands_single hldi, hcleared⟩

/-- CLRERR writes a 1 to each of ERRMASK's sixteen bits (R25). -/
theorem runCommands_clrErr (rt : GReg) (s : State) :
    ∃ t, runCommands (Pseudo.clrErr rt).expand s = .next t ∧ t.err = .ok ∧ t.errmask = 0 ∧ readReg t (.g rt) = 0xFFFF ∧
      SameBut (fun r => r = .err ∨ r = .errmask ∨ r = .g rt) s t ∧ SameOutside s t ∧ t.bus = s.bus := by
  obtain ⟨t, hldi, ⟨⟨-, hsame, hout⟩, hbus⟩, hones⟩ := exec_ldi rt 0xFFFF s
  obtain ⟨u, hput, herr, hbits, hsame', hout', hbus'⟩ := put_errmask rt t
  have hmask : u.errmask = 0 := by
    apply BitVec.eq_of_getLsbD_eq
    intro k hk
    have hone : (BitVec.zeroExtend 32 (0xFFFF : BitVec 16)).getLsbD k = true := by
      revert k
      decide
    rw [hbits k hk, hones, hone]
    simp
  refine ⟨u, (runCommands_cons hldi _).trans (runCommands_single hput), herr, hmask, ?_,
    hsame.trans (hsame'.mono fun r => Or.imp_right .inl), hout.trans hout', hbus'.trans hbus⟩
  rw [hsame' (.g rt) (by simp), hones]
  rfl

theorem runCommands_setf {r : Reg} (h : plainIndex r.index) (imm : BitVec 16) (rt : GReg) (s : State) :
    ∃ t, runCommands (Pseudo.setf r.index imm rt).expand s = .next t ∧
      CompletesOffBus .ok (fun x => x = r ∨ x = .g rt) s t ∧
      readReg t r = imm.zeroExtend 32 &&& storedMask r.index ∧ (r ≠ .g rt → readReg t (.g rt) = imm.zeroExtend 32) := by
  obtain ⟨t, hldi, hcompletes, himm⟩ := exec_ldi rt imm s
  obtain ⟨u, hput, hcompletes', hreg⟩ := put_plain h rt t
  refine ⟨u, (runCommands_cons hldi _).trans (runCommands_single hput),
    (hcompletes.mono fun _ => .inr).after_ok (hcompletes'.mono fun _ => .inl), by rw [hreg, himm], fun hne => ?_⟩
  obtain ⟨⟨-, hsame, -⟩, -⟩ := hcompletes'
  rw [hsame (.g rt) (by simp [hne.symm]), himm]

/-- Settles O19, one pseudo-command after another. -/
theorem pseudoCommandsDoWhatTheyName : Obligations.PseudoCommandsDoWhatTheyName := by
  unfold Obligations.PseudoCommandsDoWhatTheyName
  exact ⟨runCommands_li, runCommands_mov, runCommands_clr, runCommands_clrErr,
    fun _ imm rt s hplain => runCommands_setf hplain imm rt s⟩

end Sys2Proof.Machine

/-! PROOF. The block register commands NOP, LDI, LUI, GET and PUT (R111-R121): the value each writes, what it leaves alone, and the
indices that GET and PUT refuse. -/

namespace Sys2Proof.Machine

/-! ### NOP and its word (R111) -/

/-- The decoder gives a command for exactly one word, the one that encodes it (R91, R95). -/
theorem decode_eq_ok_iff_encode {w : Word} {i : Instr} :
    decode w = .ok i ↔ i.wellFormed = true ∧ encode i = w := by
  constructor
  · exact encodeInvertsDecode w i
  · rintro ⟨hwf, rfl⟩
    exact decode_encode hwf

theorem encode_nop : encode .nop = 0x01000000 := rfl

theorem decode_eq_nop_iff (w : Word) : decode w = .ok .nop ↔ w = 0x01000000 := by
  rw [decode_eq_ok_iff_encode, encode_nop]
  exact ⟨fun ⟨_, h⟩ => h.symm, fun h => ⟨rfl, h.symm⟩⟩

/-- A word with NOP's opcode byte that decodes is NOP's: its row is NOP's, and that row has no operands. -/
theorem eq_nop_of_decode {w : Word} {i : Instr} (hbyte : opcodeByte w = Opcode.nop.byte) (hdec : decode w = .ok i) :
    i = .nop := by
  obtain ⟨op, hrow, -, rfl⟩ := decode_eq_ok_iff.1 hdec
  obtain rfl : op = .nop := Opcode.byte_injective (hrow.trans hbyte)
  rfl

/-- Settles O12: NOP is its completion alone, and any other word of its row has a reserved bit set. -/
theorem nopSetsErrToOk : Obligations.NopSetsErrToOk := by
  unfold Obligations.NopSetsErrToOk
  refine ⟨fun s => ⟨_, rfl, completes_raise s .ok⟩, decode_eq_nop_iff, fun w hbyte hne => ?_⟩
  refine (illegalWord_iff w).2 fun i hdec => hne ?_
  obtain rfl := eq_nop_of_decode hbyte hdec
  exact (decode_eq_nop_iff w).1 hdec

/-! ### LDI and LUI (R112, R113) -/

theorem toNat_lowBits (n : Nat) (v : Word) : (lowBits n v).toNat = v.toNat % 2 ^ n := by
  rw [lowBits, toNat_field, Nat.pow_zero, Nat.div_one]

theorem toNat_zeroExtend_imm (imm : BitVec 16) : (imm.zeroExtend 32).toNat = imm.toNat :=
  BitVec.toNat_setWidth_of_le (by decide)

/-- The value of a word made of two halves. -/
theorem toNat_append_halves (hi lo : BitVec 16) : (hi ++ lo).toNat = hi.toNat * 65536 + lo.toNat := by
  rw [BitVec.toNat_append, ← Nat.shiftLeft_add_eq_or_of_lt lo.isLt, Nat.shiftLeft_eq]

/-- Settles O13: the written words of `exec_ldi` and `exec_lui`, as numbers. -/
theorem immediatesLoadHalves : Obligations.ImmediatesLoadHalves := by
  unfold Obligations.ImmediatesLoadHalves
  intro rd imm s
  obtain ⟨t, hldi, hcompletes, hread⟩ := exec_ldi rd imm s
  obtain ⟨u, hlui, hcompletes', hread'⟩ := exec_lui rd imm s
  refine ⟨⟨t, hldi, hcompletes, ?_⟩, u, hlui, hcompletes', ?_⟩
  · rw [hread, toNat_zeroExtend_imm]
  · rw [hread', toNat_append_halves, toNat_lowBits]
    rfl

/-! ### GET (R115) -/

theorem assignedIndex_iff_exists (idx : BitVec 8) : assignedIndex idx ↔ ∃ r : Reg, r.index = idx := by
  rw [assignedIndex_iff, Option.isSome_iff_exists]
  constructor
  · rintro ⟨r, hr⟩
    exact ⟨r, Reg.index_of_ofIndex hr⟩
  · rintro ⟨r, rfl⟩
    exact ⟨r, Reg.ofIndex_index r⟩

theorem exec_get_unassigned (rd : GReg) {idx : BitVec 8} (s : State) (h : ¬ assignedIndex idx) :
    exec (.get rd idx) s = .next (s.complete .argRange) := by
  have hget : execGet rd idx s = finish (raise s .argRange) := by simp [execGet, ofIndex_of_not_assigned h]
  exact hget

/-- Settles O14: the assigned indices are the registers', and GET looks the index up before it writes. -/
theorem getCopiesAnyRegister : Obligations.GetCopiesAnyRegister := by
  unfold Obligations.GetCopiesAnyRegister
  exact ⟨assignedIndex_iff_exists, exec_get, fun rd _ s h => ⟨_, exec_get_unassigned rd s h, completes_raise s .argRange⟩⟩

/-! ### PUT to CFG_MAXRETRY (R38, R121) -/

theorem lowBits_eq_zero_iff (v : Word) : lowBits 8 v = 0 ↔ v &&& 0xFF = 0 :=
  extractLsb'_eq_zero_iff (by decide) (by decide)

/-- A written value whose low byte is not 0 stands in CFG_MAXRETRY as that byte. -/
theorem zeroExtend_legalRetry_of_ne {v : Word} (h : v &&& 0xFF ≠ 0) : (legalRetry v).zeroExtend 32 = v &&& 0xFF := by
  rw [legalRetry, if_neg (mt (lowBits_eq_zero_iff v).1 h)]
  exact zeroExtend_lowBits 8 v

/-- A written value whose low byte is 0 is made 1: CFG_MAXRETRY is "always 1..255". -/
theorem legalRetry_of_eq {v : Word} (h : v &&& 0xFF = 0) : legalRetry v = 1 :=
  if_pos ((lowBits_eq_zero_iff v).2 h)

/-- A write of a configuration register has no side effect on FLAGS, so PUT changes CFG_MAXRETRY alone. -/
theorem put_maxRetry (rs : GReg) (s : State) :
    ∃ t, exec (.put 0x41 rs) s = .next t ∧ CompletesOffBus .ok (· = .cfgMaxRetry) s t ∧
      readReg t .cfgMaxRetry = (legalRetry (readReg s (.g rs))).zeroExtend 32 := by
  obtain ⟨⟨hrec, hsame, hout⟩, hbus⟩ := completesOffBus_put .cfgMaxRetry (readReg s (.g rs)) s nofun
  refine ⟨_, exec_put .cfgMaxRetry rs s rfl, ⟨⟨hrec, fun x hx => ?_, hout⟩, hbus⟩, rfl⟩
  by_cases hxf : x = .flags
  · rw [hxf]
    rfl
  · exact hsame x (by grind)

/-- Settles O15: the registers without side effect by `put_plain`, and CFG_MAXRETRY's legal value. -/
theorem putStoresTheLegalBits : Obligations.PutStoresTheLegalBits := by
  unfold Obligations.PutStoresTheLegalBits
  intro rs s
  obtain ⟨t, hput, hcompletes, hread⟩ := put_maxRetry rs s
  refine ⟨fun r hplain => put_plain hplain rs s, t, hput, hcompletes, fun hne => ?_, fun heq => ?_⟩
  · rw [hread, zeroExtend_legalRetry_of_ne hne]
  · rw [hread, legalRetry_of_eq heq]
    rfl

/-! ### PUT refused (R120) -/

/-- Where a refused index names a register at all, that register is read-only. -/
theorem readOnly_of_refused_index {idx : BitVec 8} {r : Reg} (h : readOnlyIndex idx ∨ ¬ assignedIndex idx)
    (hr : Reg.ofIndex idx = some r) : r.readOnly = true := by
  obtain rfl := Reg.index_of_ofIndex hr
  rcases h with hro | hun
  · exact (readOnlyIndex_index r).1 hro
  · exact absurd ((assignedIndex_iff_exists _).2 ⟨r, rfl⟩) hun

theorem exec_put_refused {idx : BitVec 8} (rs : GReg) (s : State) (h : readOnlyIndex idx ∨ ¬ assignedIndex idx) :
    exec (.put idx rs) s = .next (s.complete .argRange) := by
  have hput : execPut idx rs s = finish (raise s .argRange) := by
    unfold execPut
    cases hr : Reg.ofIndex idx with
    | none => rfl
    | some r => exact if_pos (readOnly_of_refused_index h hr)
  exact hput

/-- Settles O18: no register or a read-only one, PUT raises ArgRange before it writes. -/
theorem putRefusesReadOnlyAndUnassigned : Obligations.PutRefusesReadOnlyAndUnassigned := by
  unfold Obligations.PutRefusesReadOnlyAndUnassigned
  exact fun _ rs s h => ⟨_, exec_put_refused rs s h, completes_raise s .argRange⟩

end Sys2Proof.Machine

/-! PROOF. The bus transport commands I2CWR and I2CRD on any bus (R130-R136): the operand check made before any transaction, and
the block of BUF that each moves. -/

namespace Sys2Proof.Machine

/-! ### The operand check (R131) -/

section
variable {reg : RegOffset} {len : Nat} (addr : DevAddr) (s : State)

theorem busOperandsOk_iff_not_outOfBounds :
    busOperandsOk reg len = true ↔ ¬ (len = 0 ∨ 32 < len ∨ 256 < reg.toNat + len) := by
  rw [busOperandsOk_iff]
  omega

theorem exec_i2cwr_argRange (h : ¬ busOperandsOk reg len = true) :
    exec (.i2cwr addr reg len) s = .next (s.complete .argRange) := if_neg h

theorem exec_i2crd_argRange (h : ¬ busOperandsOk reg len = true) :
    exec (.i2crd addr reg len) s = .next (s.complete .argRange) := if_neg h

/-- I2CWR past the check makes the one write of R132, whatever the answer, and does not raise ArgRange. -/
theorem i2cwr_makes_write (hop : busOperandsOk reg len = true) :
    ∃ t, exec (.i2cwr addr reg len) s = .next t ∧ t.err ≠ .argRange ∧
      t.bus = s.bus.after (.write addr reg (s.buf.toList.take len)) := by
  by_cases hans : s.bus.answer (.write addr reg (s.buf.toList.take len)) = .nak
  · exact ⟨_, exec_i2cwr_nak hop hans, nofun, rfl⟩
  · exact ⟨_, exec_i2cwr_acked hop hans, nofun, rfl⟩

/-- I2CRD past the check makes the one read of R135, whatever the answer, and does not raise ArgRange. -/
theorem i2crd_makes_read (hop : busOperandsOk reg len = true) :
    ∃ t, exec (.i2crd addr reg len) s = .next t ∧ t.err ≠ .argRange ∧ t.bus = s.bus.after (.read addr reg len) := by
  by_cases hans : ∃ bs, s.bus.answer (.read addr reg len) = .ack bs ∧ bs.length = len
  · obtain ⟨bs, hack, hlen⟩ := hans
    exact ⟨_, exec_i2crd_accepted hop hack hlen, nofun, rfl⟩
  · exact ⟨_, exec_i2crd_unaccepted hop (fun bs hack hlen => hans ⟨bs, hack, hlen⟩), nofun, rfl⟩

end

/-- Settles O32: on both sides of the check, the log by the one transaction made. -/
theorem busCommandsCheckTheirOperands : Obligations.BusCommandsCheckTheirOperands := by
  unfold Obligations.BusCommandsCheckTheirOperands
  intro addr reg len s
  rw [← busOperandsOk_iff_not_outOfBounds]
  refine ⟨fun hbad => ?_, fun hop => ?_⟩
  · have hop : ¬ busOperandsOk reg len = true := mt busOperandsOk_iff_not_outOfBounds.1 (not_not_intro hbad)
    exact ⟨⟨_, exec_i2cwr_argRange addr s hop, completes_raise s _⟩, _, exec_i2crd_argRange addr s hop, completes_raise s _⟩
  · obtain ⟨t, hwrite, herr, hbus⟩ := i2cwr_makes_write addr s hop
    obtain ⟨u, hread, herr', hbus'⟩ := i2crd_makes_read addr s hop
    obtain ⟨-, hlen, -⟩ := busOperandsOk_iff.1 hop
    have hsent : (s.buf.toList.take len).length = len := by simp [hlen]
    exact ⟨⟨t, _, _, hwrite, herr, hsent, by rw [hbus, Bus.after_log]⟩,
      u, _, hread, herr', by rw [hbus', Bus.after_log]⟩

/-! ### The block moved (R132-R136) -/

/-- I2CRD with an accepted answer: BUF[0..len-1] hold it, and nothing else is changed (R135). -/
theorem i2crd_fills_buf {addr : DevAddr} {reg : RegOffset} {len : Nat} {s : State} {bs : List Byte}
    (hop : busOperandsOk reg len = true) (hans : s.bus.answer (.read addr reg len) = .ack bs) (hlen : bs.length = len) :
    ∃ t, exec (.i2crd addr reg len) s = .next t ∧ Completes .ok (bufRange 0 len) s t ∧
      t.bus = s.bus.after (.read addr reg len) ∧
      ∀ i : Fin 32, i.val < len → readReg t (.buf i) = (bs.getD i 0).zeroExtend 32 := by
  refine ⟨_, exec_i2crd_accepted hop hans hlen, completes_received s _ hlen, rfl, fun i hi => ?_⟩
  have hin : i.val < bs.length := by omega
  rw [readReg_complete _ _ _ (by simp) (by simp), readReg_storeBuf_received _ hin, List.getD_eq_getElem _ _ hin,
    Fin.getElem_fin]

/-- Settles O33: each command by the answer it gets, with the operands past the check. -/
theorem busCommandsMoveTheBuffer : Obligations.BusCommandsMoveTheBuffer := by
  unfold Obligations.BusCommandsMoveTheBuffer
  intro addr reg len s hpos hlen hfit
  have hop := busOperandsOk_iff.2 ⟨hpos, hlen, hfit⟩
  refine ⟨fun hacked => ?_, fun hnak => ?_, fun bs hans hbs => ?_, fun hans => ?_⟩
  · exact ⟨_, exec_i2cwr_acked hop hacked, completes_setBus s _ _, rfl⟩
  · exact ⟨_, exec_i2cwr_nak hop hnak, completes_setBus s _ _, rfl⟩
  · exact i2crd_fills_buf hop hans hbs
  · exact ⟨_, exec_i2crd_unaccepted hop hans, completes_setBus s _ _, rfl⟩

end Sys2Proof.Machine

/-! PROOF. The BCD unit (R150-R167): the BCD byte codec and its two round trips, the weekday against the calendar counted day by
day, the range checks, the BCD time block, and the six commands made of them. -/

namespace Sys2Proof.Machine

/-! ### Reading the state after an update -/

theorem err_of_completesOffBus {e : ErrCode} {W : Reg → Prop} {s t : State} (h : CompletesOffBus e W s t) : t.err = e := by
  obtain ⟨⟨⟨herr, -⟩, -⟩, -⟩ := h
  exact herr

theorem State.setBus_self (s : State) : s.setBus s.bus = s := rfl

theorem readReg_setTime (s : State) (t : RtcTime) (r : Reg) (h : ¬ timeReg r) : readReg (s.setTime t) r = readReg s r := by
  cases r with
  | timeSec | timeMin | timeHour | timeWday | timeDay | timeMonth | timeYear => exact absurd (by simp [timeReg]) h
  | _ => rfl

/-- Byte `k + i` of a buffer after a block was stored from byte `k` on. -/
theorem getElem_storeBytes_ofFn {m n : Nat} (v : Vector Byte m) (k : Nat) (c : Fin n → Byte) (i : Fin n) {j : Nat} (hj : j < m)
    (hi : j = k + i) : (storeBytes v k (List.ofFn c))[j] = c i := by
  subst hi
  rw [getElem_storeBytes_inside v k _ i.val (by simp) hj, List.getElem_ofFn]

theorem readReg_storeBuf_ofFn (s : State) (k : Nat) {n : Nat} (c : Fin n → Byte) (i : Fin n) (j : Fin 32) (hj : j.val = k + i) :
    readReg (s.storeBuf k (List.ofFn c)) (.buf j) = (c i).zeroExtend 32 :=
  congrArg (BitVec.zeroExtend 32) (getElem_storeBytes_ofFn s.buf k c i j.isLt hj)

theorem take_buf (s : State) : s.buf.toList.take 7 = List.ofFn (fun i : Fin 7 => s.buf[i]) := by
  refine List.ext_getElem (by simp) (fun j _ _ => ?_)
  rw [List.getElem_take, Vector.getElem_toList, List.getElem_ofFn]
  rfl

/-! ### The BCD byte codec (R150-R153) -/

theorem toNat_bcdByte {v : Nat} (h : v ≤ 99) : (bcdByte v).toNat = v / 10 * 16 + v % 10 := by
  rw [bcdByte, BitVec.toNat_ofNat]
  omega

/-- The units digit lies below the shifted tens digit, so putting them together is adding them. -/
theorem bcdEnc_eq_bcdByte (v : Nat) : bcdEnc v = bcdByte v := by
  have hunits : v % 10 < 2 ^ 4 := by omega
  apply BitVec.eq_of_toNat_eq
  calc
    (bcdEnc v).toNat = ((v / 10) <<< 4 ||| v % 10) % 2 ^ 8 := by
      rw [bcdEnc, Nat.or_mod_two_pow]
      simp [Nat.shiftLeft_eq, Nat.mul_mod]
    _ = (v / 10 * 16 + v % 10) % 2 ^ 8 := by rw [← Nat.shiftLeft_add_eq_or_of_lt hunits, Nat.shiftLeft_eq]
    _ = (bcdByte v).toNat := (BitVec.toNat_ofNat ..).symm

theorem bcdDec_eq_bcdValue (b : Byte) : bcdDec b = bcdValue b := by
  have := b.isLt
  simp only [bcdDec, bcdValue, BitVec.extractLsb'_toNat, Nat.shiftRight_eq_div_pow]
  omega

theorem bcdValue_bcdByte {v : Nat} (h : v ≤ 99) : bcdValue (bcdByte v) = v := by
  rw [bcdValue, toNat_bcdByte h]
  omega

theorem bcdDec_bcdEnc {v : Nat} (h : v ≤ 99) : bcdDec (bcdEnc v) = v := by
  rw [bcdDec_eq_bcdValue, bcdEnc_eq_bcdByte, bcdValue_bcdByte h]

/-- A byte is the BCD byte of its value exactly where it is well-formed (R153). -/
theorem bcdByte_bcdValue_iff {b : Byte} (h : bcdValue b ≤ 99) :
    bcdByte (bcdValue b) = b ↔ b.toNat / 16 ≤ 9 ∧ b.toNat % 16 ≤ 9 := by
  rw [← BitVec.toNat_inj, toNat_bcdByte h]
  unfold bcdValue at h ⊢
  omega

theorem bcdValue_lt (b : Byte) : bcdValue b < 2 ^ 8 := by
  have := b.isLt
  unfold bcdValue
  omega

theorem toNat_word {n : Nat} (h : n < 2 ^ 32) : (word n).toNat = n := toNat_ofNat_lt n h

theorem word_toNat (v : Word) : word v.toNat = v := BitVec.eq_of_toNat_eq (toNat_word v.isLt)

theorem toNat_zeroExtend_byte (b : Byte) : (b.zeroExtend 32).toNat = b.toNat := BitVec.toNat_setWidth_of_le (by decide)

theorem toNat_lowByte {v : Word} (h : v.toNat ≤ 0xFF) : (lowBits 8 v).toNat = v.toNat := by
  rw [toNat_lowBits]
  omega

/-! ### BCDENC and BCDDEC (R161, R162) -/

section
variable (rd rs : GReg) (s : State)

theorem exec_bcdenc (h : (readReg s (.g rs)).toNat ≤ 99) :
    ∃ t, exec (.bcdenc rd rs) s = .next t ∧ CompletesOffBus .ok (· = .g rd) s t ∧
      readReg t (.g rd) = (bcdByte (readReg s (.g rs)).toNat).zeroExtend 32 := by
  have henc : exec (.bcdenc rd rs) s = finish (done (s.setG rd ((bcdEnc (readReg s (.g rs)).toNat).zeroExtend 32))) :=
    if_neg (Nat.not_lt.2 h)
  rw [henc, bcdEnc_eq_bcdByte]
  exact ⟨_, rfl, completesOffBus_setG rd _ s, readReg_setG_complete rd _ s _⟩

theorem exec_bcdenc_argRange (h : 99 < (readReg s (.g rs)).toNat) :
    exec (.bcdenc rd rs) s = .next (s.complete .argRange) := if_pos h

theorem exec_bcddec (h : (readReg s (.g rs)).toNat ≤ 0xFF) :
    ∃ t, exec (.bcddec rd rs) s = .next t ∧ CompletesOffBus .ok (· = .g rd) s t ∧
      (readReg t (.g rd)).toNat = bcdValue (lowBits 8 (readReg s (.g rs))) := by
  have hdec : exec (.bcddec rd rs) s = finish (done (s.setG rd (word (bcdDec (lowBits 8 (readReg s (.g rs))))))) :=
    if_neg (Nat.not_lt.2 h)
  rw [hdec, bcdDec_eq_bcdValue]
  refine ⟨_, rfl, completesOffBus_setG rd _ s, ?_⟩
  have hlt := bcdValue_lt (lowBits 8 (readReg s (.g rs)))
  exact (congrArg BitVec.toNat (readReg_setG_complete rd _ s _)).trans (toNat_word (by omega))

theorem exec_bcddec_argRange (h : 0xFF < (readReg s (.g rs)).toNat) :
    exec (.bcddec rd rs) s = .next (s.complete .argRange) := if_pos h

end

/-- Settles O20: each command on both sides of its bound. -/
theorem bcdencAndBcddec : Obligations.BcdencAndBcddec := by
  unfold Obligations.BcdencAndBcddec
  intro rd rs s
  refine ⟨fun h => ?_, fun h => ⟨_, exec_bcdenc_argRange rd rs s h, completes_raise s _⟩, fun h => ?_,
    fun h => ⟨_, exec_bcddec_argRange rd rs s h, completes_raise s _⟩⟩
  · obtain ⟨t, henc, hcompletes, hread⟩ := exec_bcdenc rd rs s h
    exact ⟨t, henc, hcompletes, by rw [hread, toNat_zeroExtend_byte, toNat_bcdByte h]⟩
  · obtain ⟨t, hdec, hcompletes, hread⟩ := exec_bcddec rd rs s h
    exact ⟨t, hdec, hcompletes, by rw [hread, bcdValue, toNat_lowByte h]⟩

/-- Settles O21: the second command reads what the first one wrote, so the round trips are those of the codec. -/
theorem bcdRoundTrips : Obligations.BcdRoundTrips := by
  unfold Obligations.BcdRoundTrips
  intro rs rx rd s
  refine ⟨fun h => ?_, fun hbyte hvalue => ?_⟩
  · obtain ⟨t, henc, -, hx⟩ := exec_bcdenc rx rs s h
    have hxv : (readReg t (.g rx)).toNat = (bcdByte (readReg s (.g rs)).toNat).toNat := by rw [hx, toNat_zeroExtend_byte]
    have hxle : (readReg t (.g rx)).toNat ≤ 0xFF := hxv ▸ Nat.le_of_lt_succ (bcdByte (readReg s (.g rs)).toNat).isLt
    obtain ⟨u, hdec, hcompletes, hd⟩ := exec_bcddec rd rx t hxle
    have hlow : lowBits 8 (readReg t (.g rx)) = bcdByte (readReg s (.g rs)).toNat :=
      BitVec.eq_of_toNat_eq ((toNat_lowByte hxle).trans hxv)
    refine ⟨u, (runCommands_cons henc _).trans (runCommands_single hdec), err_of_completesOffBus hcompletes, ?_⟩
    exact BitVec.eq_of_toNat_eq (by rw [hd, hlow, bcdValue_bcdByte h])
  · obtain ⟨t, hdec, -, hx⟩ := exec_bcddec rx rs s hbyte
    have hlow : (lowBits 8 (readReg s (.g rs))).toNat = (readReg s (.g rs)).toNat := toNat_lowByte hbyte
    have hle : bcdValue (lowBits 8 (readReg s (.g rs))) ≤ 99 := by rw [bcdValue, hlow]; exact hvalue
    obtain ⟨u, henc, hcompletes, hd⟩ := exec_bcdenc rd rx t (hx ▸ hle)
    refine ⟨u, (runCommands_cons hdec _).trans (runCommands_single henc), err_of_completesOffBus hcompletes, ?_⟩
    have hback : (readReg u (.g rd)).toNat = (bcdByte (bcdValue (lowBits 8 (readReg s (.g rs))))).toNat := by
      rw [hd, toNat_zeroExtend_byte, hx]
    rw [← BitVec.toNat_inj, hback, ← hlow, BitVec.toNat_inj]
    exact bcdByte_bcdValue_iff hle

/-! ### The weekday (R158, R159) -/

/-- A year of 2000..2099 is a leap year exactly where it is a fourth one: 2000 is divisible by 400. -/
theorem yearDays_of_century {n : Nat} (h : n ≤ 99) : yearDays (2000 + n) + (n + 3) / 4 = 366 + n / 4 := by
  unfold yearDays
  split <;> omega

/-- The days of the first `n` years from 2000 on. -/
theorem sum_yearDays {n : Nat} (h : n ≤ 100) :
    ((List.range n).map (fun k => yearDays (2000 + k))).sum = 365 * n + (n + 3) / 4 := by
  induction n with
  | zero => rfl
  | succ n ih =>
    have hbefore := ih (by omega)
    have hyear := yearDays_of_century (n := n) (by omega)
    rw [List.range_succ, List.map_append, List.sum_append, List.map_singleton, List.sum_singleton]
    omega

/-- Zeller's congruence from March on, its century terms 20 / 4 + 5 * 20 = 105 put in. -/
theorem weekdayOf_of_march {n m : Nat} (hn : n ≤ 99) (hm : 3 ≤ m) (d : Nat) :
    weekdayOf (2000 + n) m d = (d + 13 * (m + 1) / 5 + n + n / 4 + 110) % 7 := by
  have hmm : ¬ m ≤ 2 := by omega
  have hk : (2000 + n) % 100 = n := by omega
  have hj : (2000 + n) / 100 = 20 := by omega
  simp only [weekdayOf, if_neg hmm, hk, hj]
  omega

/-- Zeller's congruence counts January and February to the year before, which for 2000 is of the century before. -/
theorem weekdayOf_of_january {n m : Nat} (hn : n ≤ 99) (hm : m ≤ 2) (d : Nat) :
    weekdayOf (2000 + n) m d = (d + 13 * (m + 13) / 5 + n + (n + 3) / 4 + 108) % 7 := by
  have hmm : m + 12 + 1 = m + 13 := rfl
  simp only [weekdayOf, if_pos hm, hmm]
  cases n with
  | zero => simp only [Nat.add_zero, Nat.reduceSub, Nat.reduceMod, Nat.reduceDiv, Nat.reduceMul]; omega
  | succ n =>
    have hk : (2000 + (n + 1) - 1) % 100 = n := by omega
    have hj : (2000 + (n + 1) - 1) / 100 = 20 := by omega
    have hleap : (n + 1 + 3) / 4 = n / 4 + 1 := by omega
    rw [hk, hj, hleap]
    omega

/-- The month term of Zeller's congruence is the days before the month, a leap day apart, modulo whole weeks. -/
theorem daysBeforeMonth_of_march {m : Nat} (hm : 3 ≤ m ∧ m ≤ 12) (y : Nat) :
    daysBeforeMonth y m % 7 = (13 * (m + 1) / 5 + (yearDays y - 365)) % 7 := by
  obtain ⟨hm3, hm12⟩ := hm
  rw [daysBeforeMonth, if_pos hm3, Nat.add_mod, Nat.add_mod (13 * (m + 1) / 5)]
  interval_cases m <;> rfl

theorem daysBeforeMonth_of_january {m : Nat} (hm : 1 ≤ m ∧ m ≤ 2) (y : Nat) :
    (daysBeforeMonth y m + 1) % 7 = 13 * (m + 13) / 5 % 7 := by
  obtain ⟨hm1, hm2⟩ := hm
  rw [daysBeforeMonth, if_neg (by omega)]
  interval_cases m <;> rfl

/-- Zeller's congruence counts the days: its year terms are the days of the years before, its month term those of the months. -/
theorem weekdayOf_eq_dayNumber {y m d : Nat} (hy : 2000 ≤ y ∧ y ≤ 2099) (hm : 1 ≤ m ∧ m ≤ 12) (hd : 1 ≤ d) :
    weekdayOf y m d = (5 + dayNumber y m d) % 7 := by
  obtain ⟨hy0, hy99⟩ := hy
  obtain ⟨n, rfl⟩ := Nat.exists_eq_add_of_le hy0
  have hn : n ≤ 99 := by omega
  have hyear := yearDays_of_century hn
  rw [dayNumber, Nat.add_sub_cancel_left, sum_yearDays (by omega)]
  by_cases hmarch : 3 ≤ m
  · have hmonth := daysBeforeMonth_of_march ⟨hmarch, hm.2⟩ (2000 + n)
    rw [weekdayOf_of_march hn hmarch]
    omega
  · have hmonth := daysBeforeMonth_of_january ⟨hm.1, by omega⟩ (2000 + n)
    rw [weekdayOf_of_january hn (by omega)]
    omega

/-! ### The range checks (R155, R157, R160) -/

theorem dateOk_iff (t : RtcTime) : t.dateOk = true ↔ dateFits t := by
  simp [RtcTime.dateOk, dateInRange, dateFits]

theorem clockOk_iff (t : RtcTime) : t.clockOk = true ↔ clockFits t := by
  simp [RtcTime.clockOk, clockInRange, clockFits]

theorem inRange_iff (t : RtcTime) : t.inRange = true ↔ dateFits t ∧ clockFits t ∧ t.weekday.toNat ≤ 6 := by
  rw [RtcTime.inRange, Bool.and_eq_true, Bool.and_eq_true, dateOk_iff, clockOk_iff, decide_eq_true_iff, and_assoc]

/-- A year in range is at least 2000, so the floor of R160 is the epoch alone. -/
theorem isTimeValid_iff (t : RtcTime) (epoch : BitVec 16) : isTimeValid t epoch = true ↔ validTime t epoch := by
  rw [isTimeValid, Bool.and_eq_true, Bool.and_eq_true, dateOk_iff, clockOk_iff, decide_eq_true_iff, Nat.max_le]
  unfold validTime dateFits
  tauto

theorem weekdayOf_eq_calendarWeekday {t : RtcTime} (h : dateFits t) :
    weekdayOf t.year.toNat t.month.toNat t.day.toNat = t.calendarWeekday := by
  obtain ⟨hy0, hy1, hm0, hm1, hd, -⟩ := h
  exact weekdayOf_eq_dayNumber ⟨hy0, hy1⟩ ⟨hm0, hm1⟩ hd

theorem toNat_calendarWeekday (t : RtcTime) : (word t.calendarWeekday).toNat = t.calendarWeekday :=
  toNat_word (Nat.lt_trans (Nat.mod_lt _ (by decide : 0 < 7)) (by decide))

/-! ### WDAY and TVALID (R163, R164) -/

/-- Settles O22: WDAY's range check is `dateFits`, and inside it the congruence is the calendar. -/
theorem wdayIsTheCalendarWeekday : Obligations.WdayIsTheCalendarWeekday := by
  unfold Obligations.WdayIsTheCalendarWeekday
  intro rd s
  refine ⟨fun hfits => ?_, fun hfits => ?_⟩
  · have hwday : exec (.wday rd) s = finish (done (s.setG rd (word s.time.calendarWeekday))) := by
      rw [← weekdayOf_eq_calendarWeekday hfits]
      exact if_pos ((dateOk_iff _).2 hfits)
    rw [hwday]
    exact ⟨_, rfl, completesOffBus_setG rd _ s,
      (congrArg BitVec.toNat (readReg_setG_complete rd _ s _)).trans (toNat_calendarWeekday _)⟩
  · have hwday : exec (.wday rd) s = .next (s.complete .argRange) := if_neg (mt (dateOk_iff _).1 hfits)
    exact ⟨_, hwday, completes_raise s _⟩

/-- Settles O23: the written word by whether `isTimeValid` holds. -/
theorem tvalidIsTheValidityPredicate : Obligations.TvalidIsTheValidityPredicate := by
  unfold Obligations.TvalidIsTheValidityPredicate
  intro rd s
  refine ⟨_, rfl, completesOffBus_setG rd _ s, fun hvalid => ?_, fun hvalid => ?_⟩
  · exact (readReg_setG_complete rd _ s _).trans (if_pos ((isTimeValid_iff _ _).2 hvalid))
  · exact (readReg_setG_complete rd _ s _).trans (if_neg (mt (isTimeValid_iff _ _).1 hvalid))

/-! ### The BCD time block (R155, R156) -/

theorem toBcd_eq_ofFn (t : RtcTime) :
    t.toBcd = List.ofFn (fun i : Fin 7 => bcdByte ((timeFields t).getD i 0)) := by
  simp [RtcTime.toBcd, timeFields, bcdEnc_eq_bcdByte, List.ofFn_succ]

/-- The time that a block decodes to holds what the bytes' values say (R156). -/
theorem decodesTo_ofBcd (c : Fin 7 → Byte) : decodesTo c (RtcTime.ofBcd (List.ofFn c)) := by
  have hfield : ∀ i, (word (bcdDec (c i))).toNat = bcdValue (c i) := fun i => by
    rw [bcdDec_eq_bcdValue]
    exact toNat_word (Nat.lt_trans (bcdValue_lt _) (by decide))
  have hyear : (word (2000 + bcdDec (c 6))).toNat = 2000 + bcdValue (c 6) := by
    have := bcdValue_lt (c 6)
    rw [bcdDec_eq_bcdValue]
    exact toNat_word (by omega)
  exact ⟨hfield 0, hfield 1, hfield 2, hfield 3, hfield 4, hfield 5, hyear⟩

/-- An in-range time is what its own block decodes to (R153). -/
theorem ofBcd_toBcd {t : RtcTime} (hdate : dateFits t) (hclock : clockFits t) (hwday : t.weekday.toNat ≤ 6) :
    RtcTime.ofBcd t.toBcd = t := by
  obtain ⟨hy0, hy1, -, hm, -, hd⟩ := hdate
  obtain ⟨hh, hmin, hs⟩ := hclock
  have hfield : ∀ v : Word, v.toNat ≤ 99 → word (bcdDec (bcdEnc v.toNat)) = v := fun v hv => by
    rw [bcdDec_bcdEnc hv, word_toNat]
  have hyear : word (2000 + bcdDec (bcdEnc (t.year.toNat - 2000))) = t.year := by
    rw [bcdDec_bcdEnc (by omega), Nat.add_sub_cancel' hy0, word_toNat]
  show RtcTime.mk .. = t
  rw [RtcTime.mk.injEq]
  exact ⟨hfield _ (by omega), hfield _ (by omega), hfield _ (by omega), hfield _ (by omega), hfield _ (by omega),
    hfield _ (by omega), hyear⟩

theorem length_toBcd (t : RtcTime) : t.toBcd.length = 7 := rfl

/-! ### TPACK and TUNPACK (R165, R167) -/

theorem exec_tpack {s : State} (h : dateFits s.time ∧ clockFits s.time ∧ s.time.weekday.toNat ≤ 6) :
    exec .tpack s = .next ((s.storeBuf 0 s.time.toBcd).complete .ok) := if_pos ((inRange_iff _).2 h)

theorem exec_tpack_argRange {s : State} (h : ¬ (dateFits s.time ∧ clockFits s.time ∧ s.time.weekday.toNat ≤ 6)) :
    exec .tpack s = .next (s.complete .argRange) := if_neg (mt (inRange_iff _).1 h)

theorem tpack_completes (s : State) : CompletesOffBus .ok (bufRange 0 7) s ((s.storeBuf 0 s.time.toBcd).complete .ok) := by
  have hstored := completes_received s s.bus (length_toBcd s.time)
  rw [State.setBus_self] at hstored
  exact ⟨hstored, by rw [State.complete_bus, State.storeBuf_bus]⟩

/-- Settles O24: TPACK on both sides of its range check, and TUNPACK on every state. -/
theorem tpackAndTunpackConvertTheBlock : Obligations.TpackAndTunpackConvertTheBlock := by
  unfold Obligations.TpackAndTunpackConvertTheBlock
  intro s
  refine ⟨fun hfits => ⟨_, exec_tpack hfits, tpack_completes s, fun i => ?_⟩,
    fun hfits => ⟨_, exec_tpack_argRange hfits, completes_raise s _⟩, _, rfl, ⟨?_, rfl⟩, ?_⟩
  · rw [readReg_complete _ _ _ (by simp) (by simp), toBcd_eq_ofFn]
    exact readReg_storeBuf_ofFn s 0 _ i _ (Nat.zero_add _).symm
  · exact completes_of rfl rfl (fun r _ _ hr => readReg_setTime s _ r hr) ⟨rfl, rfl, rfl⟩
  · rw [done_eq, State.complete_time, State.setTime_time, take_buf]
    exact decodesTo_ofBcd _

/-- Settles O25: TUNPACK reads back TPACK's block, which decodes to the time it was made of. -/
theorem tunpackAfterTpackRestoresTime : Obligations.TunpackAfterTpackRestoresTime := by
  unfold Obligations.TunpackAfterTpackRestoresTime
  intro s hdate hclock hwday
  have hpack := exec_tpack ⟨hdate, hclock, hwday⟩
  have hcompletes := tpack_completes s
  have htime : ((s.storeBuf 0 s.time.toBcd).complete .ok).time = s.time := by simp
  have hblock : ((s.storeBuf 0 s.time.toBcd).complete .ok).buf.toList.take 7 = s.time.toBcd := by
    simpa [length_toBcd] using take_drop_storeBytes s.buf 0 s.time.toBcd (by rw [length_toBcd]; decide)
  generalize (s.storeBuf 0 s.time.toBcd).complete .ok = t at *
  have hunpack : exec .tunpack t = .next ((t.setTime t.time).complete .ok) := by
    rw [htime, ← ofBcd_toBcd hdate hclock hwday, ← hblock]
    rfl
  exact ⟨_, (runCommands_cons hpack _).trans (runCommands_single hunpack), htime,
    hcompletes.after_ok ((completes_raise t .ok).mono fun _ => False.elim)⟩

end Sys2Proof.Machine

/-! PROOF. The RTC sequencer (R170-R186): what RTCRD and RTCSET do by the answers the bus gives them, what they leave alone,
RTCSET on a Simulated bus, and the transition table of the RTC state machine. -/

namespace Sys2Proof.Machine

open Sys2Proof.Config (Answer Request RegWrite)

/-! ### The blocks on the bus (R64, R170) -/

/-- The read of the seven time registers that RTCRD and RTCSET make. -/
abbrev State.timeRead (s : State) : Request := .read s.params.rtcAddr s.params.rtcTimeBase 7

/-- The write that RTCSET makes. -/
abbrev State.timeWrite (s : State) : Request := .write s.params.rtcAddr s.params.rtcTimeBase s.rtcBlockBytes

theorem acceptRead_ofFn {n : Nat} (c : Fin n → Byte) : acceptRead n (.ack (List.ofFn c)) = .bytes (List.ofFn c) :=
  acceptRead_bytes.2 ⟨rfl, List.length_ofFn⟩

/-- An answer other than `n` acknowledged bytes is a NAK or a short read. -/
theorem acceptRead_refused {n : Nat} {ans : Answer} (h : ∀ c : Fin n → Byte, ans ≠ .ack (List.ofFn c)) :
    acceptRead n ans = .nak ∨ acceptRead n ans = .short := by
  cases hread : acceptRead n ans with
  | nak => exact .inl rfl
  | short => exact .inr rfl
  | bytes bs =>
    obtain ⟨hans, rfl⟩ := acceptRead_bytes.1 hread
    exact absurd (hans.trans (congrArg Answer.ack List.ofFn_getElem.symm)) (h _)

/-- A block combined byte by byte with a parameter of the chip. -/
theorem zipWith_ofFn_toList {n : Nat} (f : Byte → Byte → Byte) (c : Fin n → Byte) (v : Vector Byte n) :
    List.zipWith f (List.ofFn c) v.toList = List.ofFn (fun i => f (c i) v[i]) := by
  refine List.ext_getElem (by simp) (fun j _ _ => ?_)
  rw [List.getElem_zipWith, List.getElem_ofFn, List.getElem_ofFn, Vector.getElem_toList]
  rfl

theorem maskTime_eq_iff (mask : Vector Byte 7) (c b : Fin 7 → Byte) :
    maskTime mask (List.ofFn c) = maskTime mask (List.ofFn b) ↔ ∀ i : Fin 7, c i &&& mask[i] = b i &&& mask[i] := by
  rw [maskTime, maskTime, zipWith_ofFn_toList, zipWith_ofFn_toList, List.ofFn_inj, funext_iff]

theorem readReg_storeBuf_outside (s : State) {k : Nat} {bs : List Byte} {r : Reg} (h : ¬ bufRange k (k + bs.length) r) :
    readReg (s.storeBuf k bs) r = readReg s r :=
  readReg_storeBuf s k bs r fun i hr hin => h ⟨i, hr, hin⟩

/-! ### RTCRD (R175, R176) -/

/-- The time that the data bits of seven bytes read from the RTC decode to. -/
def State.timeOf (s : State) (c : Fin 7 → Byte) : RtcTime := RtcTime.ofBcd (List.ofFn fun i => c i &&& s.params.rtcDataMask[i])

/-- RTC_STATE after a time was read (R175). -/
def State.judge (s : State) (t : RtcTime) : RtcState := if isTimeValid t s.cfg.epoch then .valid else .invalid

/-- What RTCRD writes where the bus answered with seven bytes (R175). -/
def State.storeTime (s : State) (c : Fin 7 → Byte) : State :=
  ((s.storeBuf 0 (List.ofFn c)).setTime (s.timeOf c)).setRtc (s.judge (s.timeOf c)) .ready

theorem rtcAccept_ofFn (s : State) (c : Fin 7 → Byte) : rtcAccept (List.ofFn c) s = done (s.storeTime c) := by
  rw [rtcAccept, maskTime, zipWith_ofFn_toList]
  rfl

@[simp] theorem State.storeTime_bus (s : State) (c : Fin 7 → Byte) : (s.storeTime c).bus = s.bus := by
  simp [State.storeTime]

@[simp] theorem State.storeTime_buf (s : State) (c : Fin 7 → Byte) :
    (s.storeTime c).buf = storeBytes s.buf 0 (List.ofFn c) := by
  simp [State.storeTime]

@[simp] theorem State.storeTime_time (s : State) (c : Fin 7 → Byte) : (s.storeTime c).time = s.timeOf c := by
  simp [State.storeTime]

@[simp] theorem State.storeTime_rtcState (s : State) (c : Fin 7 → Byte) :
    (s.storeTime c).rtcState = s.judge (s.timeOf c) := rfl

@[simp] theorem State.storeTime_rtcDev (s : State) (c : Fin 7 → Byte) : (s.storeTime c).rtcDev = .ready := rfl

theorem readReg_storeTime_buf (s : State) (c : Fin 7 → Byte) (i : Fin 7) :
    readReg (s.storeTime c) (.buf ⟨i, by omega⟩) = (c i).zeroExtend 32 := by
  rw [State.storeTime, readReg_setRtc _ _ _ _ (by simp) (by simp), readReg_setTime _ _ _ (by simp [timeReg])]
  exact readReg_storeBuf_ofFn s 0 c i _ (Nat.zero_add _).symm

theorem judge_of_validTime {s : State} {t : RtcTime} (h : validTime t s.cfg.epoch) : s.judge t = .valid :=
  if_pos ((isTimeValid_iff _ _).2 h)

theorem judge_of_not_validTime {s : State} {t : RtcTime} (h : ¬ validTime t s.cfg.epoch) : s.judge t = .invalid :=
  if_neg (mt (isTimeValid_iff _ _).1 h)

section
variable {s : State}

theorem exec_rtcrd_accepted {c : Fin 7 → Byte} (h : s.bus.answer s.timeRead = .ack (List.ofFn c)) :
    exec .rtcrd s = .next (((s.setBus (s.bus.after s.timeRead)).storeTime c).complete .ok) := by
  simp only [exec, execRtcrd, memRead_eq, h, acceptRead_ofFn, rtcAccept_ofFn, done_eq, finish_eq]

theorem exec_rtcrd_refused (h : ∀ c : Fin 7 → Byte, s.bus.answer s.timeRead ≠ .ack (List.ofFn c)) :
    exec .rtcrd s = .next (((s.setBus (s.bus.after s.timeRead)).setRtc .unchecked .notResponding).complete .busError) := by
  rcases acceptRead_refused h with hread | hread <;> simp [exec, execRtcrd, memRead_eq, hread]

theorem storeTime_completes (b : Bus) (c : Fin 7 → Byte) :
    Completes .ok (fun r => timeReg r ∨ bufRange 0 7 r ∨ r = .rtcState ∨ r = .rtcDev) s
      (((s.setBus b).storeTime c).complete .ok) := by
  refine completes_of (r := done ((s.setBus b).storeTime c)) rfl (by simp [State.storeTime]) (fun r _ _ hr => ?_)
    (by simp [SameOutside, State.storeTime])
  simp only [not_or] at hr
  obtain ⟨htime, hbuf, hstate, hdev⟩ := hr
  rw [done_eq, State.storeTime, readReg_setRtc _ _ _ _ hstate hdev, readReg_setTime _ _ _ htime,
    readReg_storeBuf_outside _ (by simpa using hbuf), readReg_setBus]

theorem setRtc_completes (b : Bus) (st : RtcState) (dev : DeviceStatus) (e : ErrCode) :
    Completes e (fun r => r = .rtcState ∨ r = .rtcDev) s (((s.setBus b).setRtc st dev).complete e) := by
  refine completes_of (r := raise ((s.setBus b).setRtc st dev) e) rfl rfl (fun r _ _ hr => ?_) ⟨rfl, rfl, rfl⟩
  obtain ⟨hstate, hdev⟩ := not_or.1 hr
  rw [raise_eq, readReg_setRtc _ _ _ _ hstate hdev, readReg_setBus]

end

/-- Settles O26: RTCRD by the answer it gets. -/
theorem rtcrdReadsTheClock : Obligations.RtcrdReadsTheClock := by
  unfold Obligations.RtcrdReadsTheClock
  intro s
  refine ⟨fun c hans => ?_, fun hans => ⟨_, exec_rtcrd_refused hans, setRtc_completes _ _ _ _, rfl, rfl, rfl⟩⟩
  refine ⟨_, exec_rtcrd_accepted hans, storeTime_completes _ c, ?_⟩
  simp only [State.complete_bus, State.complete_time, State.complete_rtcState, State.complete_rtcDev, State.storeTime_bus,
    State.storeTime_time, State.storeTime_rtcState, State.storeTime_rtcDev, State.setBus_bus, true_and]
  refine ⟨fun i => ?_, decodesTo_ofBcd _, judge_of_validTime, judge_of_not_validTime⟩
  rw [readReg_complete _ _ _ (by simp) (by simp), readReg_storeTime_buf]

/-! ### What RTCSET stages and leaves (R181, R182) -/

theorem rtcSetBytes_eq {s : State} (h : dateFits s.time) : rtcSetBytes s = s.rtcBlockBytes := by
  rw [rtcSetBytes, RtcTime.withWeekday, weekdayOf_eq_calendarWeekday h, withSetBits, toBcd_eq_ofFn, zipWith_ofFn_toList]
  rfl

theorem length_rtcBlockBytes (s : State) : s.rtcBlockBytes.length = 7 := List.length_ofFn

@[simp] theorem rtcStage_bus (s : State) : (rtcStage s).bus = s.bus := by simp [rtcStage]

@[simp] theorem rtcStage_params (s : State) : (rtcStage s).params = s.params := by simp [rtcStage]

theorem State.storeBuf_nil (s : State) (k : Nat) : s.storeBuf k [] = s := rfl

theorem State.setBus_setBus (s : State) (b b' : Bus) : (s.setBus b).setBus b' = s.setBus b' := rfl

/-- RTCSET past its checks: the weekday and BUF[0..6] staged, the bus `b` that its transactions left, the re-read bytes `c`, none
where none were accepted, and how it marks the RTC. -/
def State.afterRtcset (s : State) (b : Bus) (c : List Byte) (st : RtcState) (dev : DeviceStatus) : State :=
  (((rtcStage s).setBus b).storeBuf 8 c).setRtc st dev

section
variable (s : State) (b : Bus) (c : List Byte) (st : RtcState) (dev : DeviceStatus)

@[simp] theorem State.afterRtcset_errmask : (s.afterRtcset b c st dev).errmask = s.errmask := by
  simp [State.afterRtcset, rtcStage]

@[simp] theorem State.afterRtcset_rtcState : (s.afterRtcset b c st dev).rtcState = st := by
  simp [State.afterRtcset, rtcStage]

@[simp] theorem State.afterRtcset_rtcDev : (s.afterRtcset b c st dev).rtcDev = dev := by
  simp [State.afterRtcset, rtcStage]

@[simp] theorem State.afterRtcset_time : (s.afterRtcset b c st dev).time = s.time.withWeekday := by
  simp [State.afterRtcset, rtcStage]

@[simp] theorem State.afterRtcset_buf : (s.afterRtcset b c st dev).buf = storeBytes (storeBytes s.buf 0 (rtcSetBytes s)) 8 c := by
  simp [State.afterRtcset, rtcStage]

@[simp] theorem State.afterRtcset_bus : (s.afterRtcset b c st dev).bus = b := by
  simp [State.afterRtcset, rtcStage]

@[simp] theorem State.afterRtcset_params : (s.afterRtcset b c st dev).params = s.params := by
  simp [State.afterRtcset, rtcStage]

theorem afterRtcset_sameOutside : SameOutside s (s.afterRtcset b c st dev) := by
  simp [SameOutside, State.afterRtcset, rtcStage]

end

/-- The registers that RTCSET writes before it has an accepted re-read. -/
def rtcsetReg (r : Reg) : Prop := r = .timeWday ∨ bufRange 0 7 r ∨ r = .rtcState ∨ r = .rtcDev

theorem readReg_setTime_withWeekday (s : State) {r : Reg} (h : r ≠ .timeWday) :
    readReg (s.setTime s.time.withWeekday) r = readReg s r := by
  cases r with
  | timeWday => contradiction
  | _ => rfl

theorem length_rtcSetBytes (s : State) : (rtcSetBytes s).length = 7 := by
  simp [rtcSetBytes, withSetBits, length_toBcd]

theorem readReg_rtcStage (s : State) {r : Reg} (hwday : r ≠ .timeWday) (hbuf : ¬ bufRange 0 7 r) :
    readReg (rtcStage s) r = readReg s r := by
  rw [rtcStage, readReg_storeBuf_outside _ (by rwa [length_rtcSetBytes]), readReg_setTime_withWeekday s hwday]

/-- RTCSET writes the weekday, the two blocks of BUF and the RTC's registers, and nothing else but the bus. -/
theorem afterRtcset_completes (s : State) (b : Bus) (c : List Byte) (st : RtcState) (dev : DeviceStatus) (e : ErrCode) :
    Completes e (fun r => rtcsetReg r ∨ bufRange 8 (8 + c.length) r) s ((s.afterRtcset b c st dev).complete e) := by
  refine completes_of (r := raise (s.afterRtcset b c st dev) e) rfl (State.afterRtcset_errmask ..) (fun r _ _ hr => ?_)
    (afterRtcset_sameOutside ..)
  simp only [rtcsetReg, not_or] at hr
  obtain ⟨⟨hwday, hbuf, hstate, hdev⟩, hreread⟩ := hr
  rw [raise_eq, State.afterRtcset, readReg_setRtc _ _ _ _ hstate hdev, readReg_storeBuf_outside _ hreread, readReg_setBus,
    readReg_rtcStage s hwday hbuf]

theorem Completes.mono {e : ErrCode} {W W' : Reg → Prop} {s t : State} (h : Completes e W s t) (hW : ∀ r, W r → W' r) :
    Completes e W' s t := by
  obtain ⟨hrec, hsame, hout⟩ := h
  exact ⟨hrec, hsame.mono fun r => Or.imp_right (Or.imp_right (hW r)), hout⟩

/-- RTCSET without an accepted re-read leaves BUF[8..14] alone. -/
theorem afterRtcset_completes_nil (s : State) (b : Bus) (st : RtcState) (dev : DeviceStatus) (e : ErrCode) :
    Completes e rtcsetReg s ((s.afterRtcset b [] st dev).complete e) := by
  refine (afterRtcset_completes s b [] st dev e).mono fun r hr => hr.resolve_right ?_
  rintro ⟨i, -, hlo, hhi⟩
  exact Nat.not_lt.2 hlo hhi

/-- The weekday and the block that RTCSET stages (R181). -/
def State.Staged (s t : State) : Prop :=
  (readReg t .timeWday).toNat = s.time.calendarWeekday ∧
    ∀ i : Fin 7, readReg t (.buf ⟨i, by omega⟩) = (s.rtcBlock i).zeroExtend 32

theorem afterRtcset_staged {s : State} (h : dateFits s.time) (b : Bus) (c : List Byte) (st : RtcState) (dev : DeviceStatus)
    (e : ErrCode) : s.Staged ((s.afterRtcset b c st dev).complete e) := by
  refine ⟨?_, fun i => ?_⟩
  · show (word (weekdayOf s.time.year.toNat s.time.month.toNat s.time.day.toNat)).toNat = _
    rw [weekdayOf_eq_calendarWeekday h, toNat_calendarWeekday]
  · have hout : ¬ bufRange 8 (8 + c.length) (.buf ⟨i, by omega⟩) := by
      rintro ⟨j, hj, hlo, -⟩
      obtain rfl : _ = j := Reg.buf.inj hj
      exact Nat.not_lt.2 hlo (Nat.lt_trans i.isLt (by decide))
    rw [readReg_complete _ _ _ (by simp) (by simp), State.afterRtcset, readReg_setRtc _ _ _ _ (by simp) (by simp),
      readReg_storeBuf_outside _ hout, readReg_setBus, rtcStage, rtcSetBytes_eq h]
    exact readReg_storeBuf_ofFn _ 0 s.rtcBlock i _ (Nat.zero_add _).symm

/-- What RTCSET left: the bus, the staged weekday and block, and its marks on the RTC. -/
theorem afterRtcset_leaves {s : State} (h : dateFits s.time) (b : Bus) (c : List Byte) (st : RtcState) (dev : DeviceStatus)
    (e : ErrCode) :
    ((s.afterRtcset b c st dev).complete e).bus = b ∧ s.Staged ((s.afterRtcset b c st dev).complete e) ∧
      ((s.afterRtcset b c st dev).complete e).rtcState = st ∧ ((s.afterRtcset b c st dev).complete e).rtcDev = dev :=
  ⟨by simp, afterRtcset_staged h b c st dev e, by simp, by simp⟩

theorem afterRtcset_reread (s : State) (b : Bus) (c : Fin 7 → Byte) (st : RtcState) (dev : DeviceStatus) (e : ErrCode)
    (i : Fin 7) :
    readReg ((s.afterRtcset b (List.ofFn c) st dev).complete e) (.buf ⟨8 + i, by omega⟩) = (c i).zeroExtend 32 := by
  rw [readReg_complete _ _ _ (by simp) (by simp), State.afterRtcset, readReg_setRtc _ _ _ _ (by simp) (by simp)]
  exact readReg_storeBuf_ofFn _ 8 c i _ rfl

/-! ### RTCSET by what it checks and what the bus answers (R180-R182) -/

section
variable {s : State}

/-- The states of R180 in which RTCSET is refused are those in which it is not accepted. -/
theorem rtcRefused_iff (st : RtcState) : st = .unchecked ∨ st = .valid ↔ ¬ (st = .invalid ∨ st = .justSet) := by
  cases st <;> simp

theorem exec_rtcset_sequence (h : s.rtcState = .unchecked ∨ s.rtcState = .valid) :
    exec .rtcset s = .next (s.complete .sequence) := by
  rcases h with h | h <;> simp [exec, execRtcset, rtcSetAllowed, h]

theorem exec_rtcset_past_guard (h : s.rtcState = .invalid ∨ s.rtcState = .justSet) :
    exec .rtcset s = if s.time.dateOk && s.time.clockOk then finish (rtcWrite s) else finish (raise s .argRange) := by
  rcases h with h | h <;> simp [exec, execRtcset, rtcSetAllowed, h]

theorem candidateOk_iff : (s.time.dateOk && s.time.clockOk) = true ↔ dateFits s.time ∧ clockFits s.time := by
  rw [Bool.and_eq_true, dateOk_iff, clockOk_iff]

theorem exec_rtcset_argRange (h : s.rtcState = .invalid ∨ s.rtcState = .justSet)
    (hfits : ¬ (dateFits s.time ∧ clockFits s.time)) : exec .rtcset s = .next (s.complete .argRange) :=
  (exec_rtcset_past_guard h).trans (if_neg (mt candidateOk_iff.1 hfits))

theorem rtcReread_refused {b : Bus} (bs : List Byte) (h : ∀ c : Fin 7 → Byte, b.answer s.timeRead ≠ .ack (List.ofFn c)) :
    rtcReread bs ((rtcStage s).setBus b) =
      (s.afterRtcset (b.after s.timeRead) [] .unchecked .notResponding, ErrCode.busError) := by
  rcases acceptRead_refused h with hread | hread <;>
    simp only [rtcReread, memRead_eq, State.setBus_params, rtcStage_params, State.setBus_bus, State.setBus_setBus, hread,
      rtcBusFailure_eq, State.afterRtcset, State.storeBuf_nil]

theorem rtcReread_accepted {b : Bus} (bs : List Byte) {c : Fin 7 → Byte} (h : b.answer s.timeRead = .ack (List.ofFn c)) :
    rtcReread bs ((rtcStage s).setBus b) = rtcConfirm bs (List.ofFn c) ((rtcStage s).setBus (b.after s.timeRead)) := by
  simp only [rtcReread, memRead_eq, State.setBus_params, rtcStage_params, State.setBus_bus, State.setBus_setBus, h,
    acceptRead_ofFn]

/-- The data bits of the re-read bytes are those of the written ones (R181). -/
def State.Confirms (s : State) (c : Fin 7 → Byte) : Prop :=
  ∀ i : Fin 7, c i &&& s.params.rtcDataMask[i] = s.rtcBlock i &&& s.params.rtcDataMask[i]

theorem rtcConfirm_same {b : Bus} {c : Fin 7 → Byte} (h : s.Confirms c) :
    rtcConfirm s.rtcBlockBytes (List.ofFn c) ((rtcStage s).setBus b) =
      (s.afterRtcset b (List.ofFn c) .justSet .ready, ErrCode.ok) := by
  simp only [rtcConfirm, State.storeBuf_params, State.setBus_params, rtcStage_params]
  exact if_pos ((maskTime_eq_iff ..).2 h)

theorem rtcConfirm_differs {b : Bus} {c : Fin 7 → Byte} (h : ¬ s.Confirms c) :
    rtcConfirm s.rtcBlockBytes (List.ofFn c) ((rtcStage s).setBus b) =
      (s.afterRtcset b (List.ofFn c) .invalid .calibrationInvalid, ErrCode.calibrationInvalid) := by
  simp only [rtcConfirm, State.storeBuf_params, State.setBus_params, rtcStage_params]
  exact if_neg (mt (maskTime_eq_iff ..).1 h)

section
variable (hset : s.rtcSettable)
include hset

theorem State.rtcSettable.pastGuard : s.rtcState = .invalid ∨ s.rtcState = .justSet := by
  obtain ⟨hstate, -⟩ := hset
  exact hstate

theorem State.rtcSettable.date : dateFits s.time := by
  obtain ⟨-, hdate, -⟩ := hset
  exact hdate

theorem exec_rtcset_settable : exec .rtcset s = finish (rtcWrite s) := by
  obtain ⟨hstate, hfits⟩ := hset
  exact (exec_rtcset_past_guard hstate).trans (if_pos (candidateOk_iff.2 hfits))

theorem exec_rtcset_nak (hw : s.bus.answer s.timeWrite = .nak) :
    exec .rtcset s = .next ((s.afterRtcset (s.bus.after s.timeWrite) [] .unchecked .notResponding).complete .busError) := by
  rw [exec_rtcset_settable hset]
  simp [rtcWrite, memWrite_eq, rtcSetBytes_eq hset.date, hw, State.afterRtcset, State.storeBuf_nil]

/-- Where the write is acknowledged, the re-read follows on what the write left (R181). -/
theorem exec_rtcset_acked (hw : s.bus.answer s.timeWrite ≠ .nak) :
    exec .rtcset s = finish (rtcReread s.rtcBlockBytes ((rtcStage s).setBus (s.bus.after s.timeWrite))) := by
  rw [exec_rtcset_settable hset]
  simp [rtcWrite, memWrite_eq, rtcSetBytes_eq hset.date, hw]

theorem exec_rtcset_refused (hw : s.bus.answer s.timeWrite ≠ .nak)
    (hq : ∀ c : Fin 7 → Byte, (s.bus.after s.timeWrite).answer s.timeRead ≠ .ack (List.ofFn c)) :
    exec .rtcset s =
      .next ((s.afterRtcset ((s.bus.after s.timeWrite).after s.timeRead) [] .unchecked .notResponding).complete .busError) := by
  rw [exec_rtcset_acked hset hw, rtcReread_refused _ hq, finish_eq]

section
variable {c : Fin 7 → Byte} (hw : s.bus.answer s.timeWrite ≠ .nak)
  (hq : (s.bus.after s.timeWrite).answer s.timeRead = .ack (List.ofFn c))
include hw hq

theorem exec_rtcset_confirmed (hsame : s.Confirms c) :
    exec .rtcset s =
      .next ((s.afterRtcset ((s.bus.after s.timeWrite).after s.timeRead) (List.ofFn c) .justSet .ready).complete .ok) := by
  rw [exec_rtcset_acked hset hw, rtcReread_accepted _ hq, rtcConfirm_same hsame, finish_eq]

theorem exec_rtcset_differs (hdiff : ¬ s.Confirms c) :
    exec .rtcset s =
      .next ((s.afterRtcset ((s.bus.after s.timeWrite).after s.timeRead) (List.ofFn c) .invalid .calibrationInvalid).complete
        .calibrationInvalid) := by
  rw [exec_rtcset_acked hset hw, rtcReread_accepted _ hq, rtcConfirm_differs hdiff, finish_eq]

end
end
end

/-- All that RTCSET can do. -/
inductive RtcsetOutcome (s : State) : State → Prop where
  | refused (h : s.rtcState = .unchecked ∨ s.rtcState = .valid) : RtcsetOutcome s (s.complete .sequence)
  | outOfRange (h : s.rtcState = .invalid ∨ s.rtcState = .justSet) : RtcsetOutcome s (s.complete .argRange)
  | busFailure (h : s.rtcSettable) (b : Bus) :
    RtcsetOutcome s ((s.afterRtcset b [] .unchecked .notResponding).complete .busError)
  | differs (h : s.rtcSettable) (b : Bus) (c : Fin 7 → Byte) :
    RtcsetOutcome s ((s.afterRtcset b (List.ofFn c) .invalid .calibrationInvalid).complete .calibrationInvalid)
  | confirmed (h : s.rtcSettable) (c : Fin 7 → Byte) (hw : s.bus.answer s.timeWrite ≠ .nak) :
    RtcsetOutcome s
      ((s.afterRtcset ((s.bus.after s.timeWrite).after s.timeRead) (List.ofFn c) .justSet .ready).complete .ok)

theorem exec_rtcset_outcome (s : State) : ∃ t, exec .rtcset s = .next t ∧ RtcsetOutcome s t := by
  by_cases hstate : s.rtcState = .invalid ∨ s.rtcState = .justSet
  · by_cases hfits : dateFits s.time ∧ clockFits s.time
    · have hset : s.rtcSettable := ⟨hstate, hfits⟩
      by_cases hw : s.bus.answer s.timeWrite = .nak
      · exact ⟨_, exec_rtcset_nak hset hw, .busFailure hset _⟩
      · by_cases hq : ∃ c : Fin 7 → Byte, (s.bus.after s.timeWrite).answer s.timeRead = .ack (List.ofFn c)
        · obtain ⟨c, hq⟩ := hq
          by_cases hsame : s.Confirms c
          · exact ⟨_, exec_rtcset_confirmed hset hw hq hsame, .confirmed hset c hw⟩
          · exact ⟨_, exec_rtcset_differs hset hw hq hsame, .differs hset _ c⟩
        · exact ⟨_, exec_rtcset_refused hset hw (fun c hc => hq ⟨c, hc⟩), .busFailure hset _⟩
    · exact ⟨_, exec_rtcset_argRange hstate hfits, .outOfRange hstate⟩
  · have hrefused := (rtcRefused_iff s.rtcState).2 hstate
    exact ⟨_, exec_rtcset_sequence hrefused, .refused hrefused⟩

/-- Settles O27: only the guard of R180 raises Sequence, and it passes in Invalid and JustSet. -/
theorem rtcsetIsGuarded : Obligations.RtcsetIsGuarded := by
  unfold Obligations.RtcsetIsGuarded
  intro s
  refine ⟨fun h => ⟨_, exec_rtcset_sequence h, completes_raise s _⟩, fun h => ?_⟩
  obtain ⟨t, hexec, hout⟩ := exec_rtcset_outcome s
  refine ⟨t, hexec, ?_⟩
  cases hout with
  | refused hrefused => exact absurd h ((rtcRefused_iff s.rtcState).1 hrefused)
  | outOfRange | busFailure | differs | confirmed => simp

/-- RTCSET with an accepted re-read writes BUF[8..14] besides. -/
theorem afterRtcset_completes_ofFn (s : State) (b : Bus) (c : Fin 7 → Byte) (st : RtcState) (dev : DeviceStatus) (e : ErrCode) :
    Completes e (fun r => rtcsetReg r ∨ bufRange 8 15 r) s ((s.afterRtcset b (List.ofFn c) st dev).complete e) := by
  have hcompletes := afterRtcset_completes s b (List.ofFn c) st dev e
  rwa [List.length_ofFn] at hcompletes

/-- Settles O28: RTCSET by the range check, the answer to its write and the answer to its re-read. -/
theorem rtcsetWritesAndConfirms : Obligations.RtcsetWritesAndConfirms := by
  unfold Obligations.RtcsetWritesAndConfirms
  intro s hstate
  have hset : dateFits s.time ∧ clockFits s.time → s.rtcSettable := fun hfits => ⟨hstate, hfits⟩
  refine ⟨fun hfits => ⟨_, exec_rtcset_argRange hstate hfits, completes_raise s _⟩, fun hfits hw => ?_,
    fun hfits hw hq => ?_, fun c hfits hw hq => ?_⟩
  · exact ⟨_, exec_rtcset_nak (hset hfits) hw, afterRtcset_completes_nil .., afterRtcset_leaves (hset hfits).date ..⟩
  · exact ⟨_, exec_rtcset_refused (hset hfits) hw hq, afterRtcset_completes_nil .., afterRtcset_leaves (hset hfits).date ..⟩
  · by_cases hsame : s.Confirms c
    · obtain ⟨hbus, hstaged, hmarks⟩ := afterRtcset_leaves (hset hfits).date _ (List.ofFn c) .justSet .ready .ok
      refine ⟨_, exec_rtcset_confirmed (hset hfits) hw hq hsame, hbus, hstaged, afterRtcset_reread s _ c _ _ _,
        fun _ => ⟨afterRtcset_completes_ofFn .., hmarks⟩, ?_⟩
      rintro ⟨i, hi⟩
      exact absurd (hsame i) hi
    · obtain ⟨hbus, hstaged, hmarks⟩ :=
        afterRtcset_leaves (hset hfits).date _ (List.ofFn c) .invalid .calibrationInvalid .calibrationInvalid
      exact ⟨_, exec_rtcset_differs (hset hfits) hw hq hsame, hbus, hstaged, afterRtcset_reread s _ c _ _ _,
        fun h => absurd h hsame, fun _ => ⟨afterRtcset_completes_ofFn .., hmarks⟩⟩

/-! ### A block on the Simulated bus (R71, R72) -/

theorem read_writeBlock_elsewhere (m : Memory) (a : DevAddr) (r : RegOffset) (bs : List Byte) (hfit : r.toNat + bs.length ≤ 256)
    {b : DevAddr} {q : RegOffset} (hout : b = a → q.toNat < r.toNat ∨ r.toNat + bs.length ≤ q.toNat) :
    (m.writeBlock a r 0 bs).read (busKey b q 0) = m.read (busKey b q 0) := by
  refine Memory.read_writeBlock_other _ _ _ _ _ _ (fun j _ hj hkey => ?_)
  obtain ⟨hdev, hreg⟩ := (busKey_inj q.isLt (by omega)).1 hkey
  have := hout hdev
  omega

section
variable {m : Memory} (h : m.wf) (a : DevAddr) (r : RegOffset) (bs : List Byte) (hfit : r.toNat + bs.length ≤ 256)
include h hfit

theorem read_writeBlock_register {j : Nat} (hj : j < bs.length) :
    (m.writeBlock a r 0 bs).read (busKey a (r + BitVec.ofNat 8 j) 0) = bs[j] := by
  rw [busKey_add a (by omega)]
  simpa only [Nat.zero_add] using Memory.read_writeBlock_same h a r 0 bs (by omega) j hj

/-- Storing a block a second time changes nothing. -/
theorem writeBlock_writeBlock : (m.writeBlock a r 0 bs).writeBlock a r 0 bs = m.writeBlock a r 0 bs := by
  have hwf := Memory.wf_writeBlock h a r 0 bs
  refine Memory.eq_of_read (Memory.wf_writeBlock hwf a r 0 bs) hwf (fun k => ?_)
  by_cases hk : ∃ j, j < bs.length ∧ k = busKey a r j
  · obtain ⟨j, hj, rfl⟩ := hk
    rw [← Nat.zero_add j, Memory.read_writeBlock_same hwf a r 0 bs (by omega) j hj,
      Memory.read_writeBlock_same h a r 0 bs (by omega) j hj]
  · exact Memory.read_writeBlock_other _ _ _ _ _ _ fun j _ hj hkey => hk ⟨j, by omega, hkey⟩

end

/-! ### RTCSET on a Simulated bus (R183, R184) -/

section
variable {s : State}

theorem timeBlock_fits (s : State) : s.params.rtcTimeBase.toNat + s.rtcBlockBytes.length ≤ 256 := by
  rw [length_rtcBlockBytes]
  exact (paramsOf_legal s.paramSel).timeBlock

theorem timeWrite_acked (hp : s.simPresent s.params.rtcAddr) : s.bus.answer s.timeWrite ≠ .nak := by
  obtain ⟨hkind, hmem, hfault⟩ := hp
  rw [Bus.answer_simulated hkind, Bus.simAnswer_write hmem hfault]
  nofun

/-- A Simulated bus that acknowledges has the device present and FAULT false. -/
theorem simPresent_of_acked {q : Request} (hkind : s.bus.kind = .simulated) (h : s.bus.answer q ≠ .nak) :
    s.simPresent (Request.addr q) := by
  rw [Bus.answer_simulated hkind] at h
  refine ⟨hkind, ?_, ?_⟩
  · by_contra hmem
    exact h (Bus.simAnswer_nak (.inr hmem))
  · by_contra hfault
    exact h (Bus.simAnswer_nak (.inl (by simpa using hfault)))

section
variable (hp : s.simPresent s.params.rtcAddr)
include hp

theorem map_after_timeWrite :
    (s.bus.after s.timeWrite).map = s.bus.map.writeBlock s.params.rtcAddr s.params.rtcTimeBase 0 s.rtcBlockBytes := by
  obtain ⟨hkind, hmem, hfault⟩ := hp
  exact Bus.after_map_of_write hkind hmem hfault _ _

/-- The Simulated RTC reads back the bytes it was sent (R75). -/
theorem timeRead_after_timeWrite (hwf : s.bus.map.wf) :
    (s.bus.after s.timeWrite).answer s.timeRead = .ack (List.ofFn s.rtcBlock) := by
  have hmap := map_after_timeWrite hp
  obtain ⟨hkind, hmem, hfault⟩ := hp
  have hback := Memory.readBlock_writeBlock hwf s.params.rtcAddr s.params.rtcTimeBase s.rtcBlockBytes (timeBlock_fits s)
  rw [length_rtcBlockBytes] at hback
  rw [Bus.answer_simulated (Bus.after_simulated hkind _), Bus.simAnswer_read (by simpa using hmem) (by simpa using hfault), hmap,
    hback]
  rfl

/-- RTCSET always succeeds on a Simulated bus with the RTC present (R183). -/
theorem exec_rtcset_simulated (hset : s.rtcSettable) (hwf : s.bus.map.wf) :
    exec .rtcset s =
      .next ((s.afterRtcset ((s.bus.after s.timeWrite).after s.timeRead) (List.ofFn s.rtcBlock) .justSet .ready).complete
        .ok) :=
  exec_rtcset_confirmed hset (timeWrite_acked hp) (timeRead_after_timeWrite hp hwf) fun _ => rfl

theorem map_after_rtcset :
    ((s.bus.after s.timeWrite).after s.timeRead).map =
      s.bus.map.writeBlock s.params.rtcAddr s.params.rtcTimeBase 0 s.rtcBlockBytes := by
  rw [Bus.after_map_of_read, map_after_timeWrite hp]

end
end

/-- Settles O29: the Simulated RTC confirms the block, which stands in its time registers alone. -/
theorem rtcsetSetsASimulatedRtc : Obligations.RtcsetSetsASimulatedRtc := by
  unfold Obligations.RtcsetSetsASimulatedRtc
  intro s hset hp hwf
  obtain ⟨hbus, ⟨hwday, hblock⟩, hstate, hdev⟩ := afterRtcset_leaves hset.date
    ((s.bus.after s.timeWrite).after s.timeRead) (List.ofFn s.rtcBlock) .justSet .ready .ok
  have hmap := (congrArg Bus.map hbus).trans (map_after_rtcset hp)
  have hreread := afterRtcset_reread s ((s.bus.after s.timeWrite).after s.timeRead) s.rtcBlock .justSet .ready .ok
  refine ⟨_, exec_rtcset_simulated hp hset hwf, (afterRtcset_completes_ofFn ..).mono ?_, hstate, hdev, hwday,
    fun i => ⟨?_, hblock i, hreread i⟩, fun a r hout => ?_⟩
  · intro r hr
    unfold rtcsetReg at hr
    tauto
  · rw [State.deviceByte, hmap, read_writeBlock_register hwf _ _ _ (timeBlock_fits s) (by simp [length_rtcBlockBytes])]
    exact List.getElem_ofFn ..
  · rw [State.deviceByte, hmap, read_writeBlock_elsewhere _ _ _ _ (timeBlock_fits s) (by rwa [length_rtcBlockBytes])]
    rfl

/-- A buffer that holds a block already is not changed by storing it. -/
theorem storeBytes_eq_self {n : Nat} (v : Vector Byte n) (k : Nat) (bs : List Byte)
    (h : ∀ (j : Nat) (hj : j < bs.length) (hi : k + j < n), v[k + j] = bs[j]) : storeBytes v k bs = v := by
  refine Vector.ext fun i hi => ?_
  rw [getElem_storeBytes]
  split
  · next hin =>
    obtain ⟨j, rfl⟩ := Nat.exists_eq_add_of_le hin.1
    rw [h j (by omega) hi]
    simp
  · rfl

theorem storeBytes_again {n : Nat} (v : Vector Byte n) (k : Nat) (bs : List Byte) :
    storeBytes (storeBytes v k bs) k bs = storeBytes v k bs :=
  storeBytes_eq_self _ k bs fun j hj hi => getElem_storeBytes_inside v k bs j hj hi

/-- RTCSET's second block does not reach into its first. -/
theorem storeBytes_first_again (v : Vector Byte 32) {bs : List Byte} (c : List Byte) (h : bs.length = 7) :
    storeBytes (storeBytes (storeBytes v 0 bs) 8 c) 0 bs = storeBytes (storeBytes v 0 bs) 8 c :=
  storeBytes_eq_self _ 0 bs fun j hj hi => by
    rw [getElem_storeBytes_outside _ 8 c _ hi (by omega), getElem_storeBytes_inside v 0 bs j hj hi]

/-- Transactions change MAP and the record of transactions of a Simulated bus, and nothing else of it. -/
theorem Bus.after_after_of_simulated {b : Bus} (h : b.kind = .simulated) (q p : Request) :
    (b.after q).after p = { b with map := ((b.after q).after p).map, log := ((b.after q).after p).log } := by
  simp [Bus.after, h]

theorem complete_ok_of_ok {s : State} (h : s.err = .ok) : s.complete .ok = s := by
  have hok : s.complete .ok = { s with err := .ok } := by simp [State.complete]
  rw [hok, ← h]

/-- RTCSET on a state that holds already all it would write changes the bus alone. -/
theorem afterRtcset_eq_setBus {t : State} (b : Bus) {c : List Byte} (htime : t.time.withWeekday = t.time)
    (hblock : storeBytes t.buf 0 (rtcSetBytes t) = t.buf) (hreread : storeBytes t.buf 8 c = t.buf)
    (hstate : t.rtcState = .justSet) (hdev : t.rtcDev = .ready) : t.afterRtcset b c .justSet .ready = t.setBus b := by
  have hstage : rtcStage t = t := by
    rw [rtcStage, htime, State.storeBuf, State.setTime_buf, hblock]
    rfl
  rw [State.afterRtcset, hstage, State.storeBuf, State.setBus_buf, hreread, ← hstate, ← hdev]
  rfl

/-- The state after RTCSET succeeded on a Simulated bus. -/
def State.afterSimRtcset (s : State) : State :=
  (s.afterRtcset ((s.bus.after s.timeWrite).after s.timeRead) (List.ofFn s.rtcBlock) .justSet .ready).complete .ok

section
variable (s : State)

@[simp] theorem State.afterSimRtcset_time : s.afterSimRtcset.time = s.time.withWeekday := by simp [State.afterSimRtcset]
@[simp] theorem State.afterSimRtcset_params : s.afterSimRtcset.params = s.params := by simp [State.afterSimRtcset]
@[simp] theorem State.afterSimRtcset_bus : s.afterSimRtcset.bus = (s.bus.after s.timeWrite).after s.timeRead := by
  simp [State.afterSimRtcset]
@[simp] theorem State.afterSimRtcset_rtcState : s.afterSimRtcset.rtcState = .justSet := by simp [State.afterSimRtcset]
@[simp] theorem State.afterSimRtcset_rtcDev : s.afterSimRtcset.rtcDev = .ready := by simp [State.afterSimRtcset]
@[simp] theorem State.afterSimRtcset_err : s.afterSimRtcset.err = .ok := by simp [State.afterSimRtcset]

/-- The second RTCSET computes the block of the first: the weekday is computed, not read (R181). -/
theorem rtcBlock_afterSimRtcset : s.afterSimRtcset.rtcBlock = s.rtcBlock := by
  funext i
  simp only [State.rtcBlock, State.afterSimRtcset_time, State.afterSimRtcset_params]
  rfl

theorem rtcBlockBytes_afterSimRtcset : s.afterSimRtcset.rtcBlockBytes = s.rtcBlockBytes :=
  congrArg List.ofFn (rtcBlock_afterSimRtcset s)

variable {s} (hset : s.rtcSettable)
include hset

theorem afterSimRtcset_settable : s.afterSimRtcset.rtcSettable := by
  obtain ⟨-, hfits⟩ := hset
  refine ⟨.inr (State.afterSimRtcset_rtcState s), ?_⟩
  rw [State.afterSimRtcset_time]
  exact hfits

theorem afterSimRtcset_buf :
    s.afterSimRtcset.buf = storeBytes (storeBytes s.buf 0 s.rtcBlockBytes) 8 s.rtcBlockBytes := by
  rw [State.afterSimRtcset, State.complete_buf, State.afterRtcset_buf, rtcSetBytes_eq hset.date]
  rfl

/-- After a success a second one changes the bus alone. -/
theorem afterSimRtcset_twice :
    s.afterSimRtcset.afterSimRtcset = s.afterSimRtcset.setBus s.afterSimRtcset.afterSimRtcset.bus := by
  have hbuf := afterSimRtcset_buf hset
  have hblock : storeBytes s.afterSimRtcset.buf 0 (rtcSetBytes s.afterSimRtcset) = s.afterSimRtcset.buf := by
    rw [rtcSetBytes_eq (afterSimRtcset_settable hset).date, rtcBlockBytes_afterSimRtcset, hbuf]
    exact storeBytes_first_again _ _ (length_rtcBlockBytes s)
  have hreread : storeBytes s.afterSimRtcset.buf 8 (List.ofFn s.afterSimRtcset.rtcBlock) = s.afterSimRtcset.buf := by
    rw [← State.rtcBlockBytes, rtcBlockBytes_afterSimRtcset, hbuf]
    exact storeBytes_again _ _ _
  have htime : s.afterSimRtcset.time.withWeekday = s.afterSimRtcset.time := by
    rw [State.afterSimRtcset_time]
    rfl
  rw [State.afterSimRtcset_bus s.afterSimRtcset]
  rw [State.afterSimRtcset, afterRtcset_eq_setBus _ htime hblock hreread (by simp) (by simp)]
  exact complete_ok_of_ok (by simp)

end

section
variable {s : State} (hset : s.rtcSettable) (hp : s.simPresent s.params.rtcAddr) (hwf : s.bus.map.wf)
include hp

theorem afterSimRtcset_simPresent : s.afterSimRtcset.simPresent s.afterSimRtcset.params.rtcAddr := by
  obtain ⟨hkind, hmem, hfault⟩ := hp
  refine ⟨?_, ?_, ?_⟩
  · rw [State.afterSimRtcset_bus]
    exact Bus.after_simulated (Bus.after_simulated hkind _) _
  · simpa using hmem
  · simpa using hfault

include hwf

/-- The second write and re-read leave MAP as it is, and add themselves to the record. -/
theorem bus_afterSimRtcset_twice :
    s.afterSimRtcset.afterSimRtcset.bus =
      { s.afterSimRtcset.bus with log := s.afterSimRtcset.afterSimRtcset.bus.log } := by
  have hp' := afterSimRtcset_simPresent hp
  have hmap : s.afterSimRtcset.afterSimRtcset.bus.map = s.afterSimRtcset.bus.map := by
    rw [State.afterSimRtcset_bus s.afterSimRtcset, map_after_rtcset hp', State.afterSimRtcset_bus, map_after_rtcset hp,
      rtcBlockBytes_afterSimRtcset, State.afterSimRtcset_params]
    exact writeBlock_writeBlock hwf _ _ _ (timeBlock_fits s)
  have hbus := Bus.after_after_of_simulated hp'.1 s.afterSimRtcset.timeWrite s.afterSimRtcset.timeRead
  rw [← State.afterSimRtcset_bus s.afterSimRtcset, hmap] at hbus
  exact hbus

end

/-- Settles O30: a success on the Simulated bus leaves a state whose own RTCSET would write what stands already. -/
theorem rtcsetTwiceIsRtcsetOnce : Obligations.RtcsetTwiceIsRtcsetOnce := by
  unfold Obligations.RtcsetTwiceIsRtcsetOnce
  intro s t hkind hwf hexec herr
  obtain ⟨t', hexec', hout⟩ := exec_rtcset_outcome s
  obtain rfl : t' = t := Host.Outcome.next.inj (hexec'.symm.trans hexec)
  cases hout with
  | refused | outOfRange | busFailure | differs => simp at herr
  | confirmed hset c hw =>
    have hp : s.simPresent s.params.rtcAddr := simPresent_of_acked hkind hw
    rw [exec_rtcset_simulated hp hset hwf] at hexec
    rw [← Host.Outcome.next.inj hexec, ← State.afterSimRtcset]
    have hwf' : s.afterSimRtcset.bus.map.wf := by
      rw [State.afterSimRtcset_bus]
      exact Bus.wf_after (Bus.wf_after hwf _) _
    refine ⟨s.afterSimRtcset.afterSimRtcset,
      exec_rtcset_simulated (afterSimRtcset_simPresent hp) (afterSimRtcset_settable hset) hwf', ?_, ?_⟩
    · rw [← bus_afterSimRtcset_twice hp hwf]
      exact afterSimRtcset_twice hset
    · rw [State.afterSimRtcset_bus s.afterSimRtcset, Bus.after_log, Bus.after_log]
      rfl

/-! ### The commands outside the RTC sequencer leave RTC_STATE and RTC_DEV alone (R186) -/

/-- The two registers of the RTC state machine. -/
def State.rtcMarks (s : State) : RtcState × DeviceStatus := (s.rtcState, s.rtcDev)

/-- The command run from `s` completes, and its pseudocode left the RTC state machine as it was. -/
def KeepsRtc (s : State) (o : Host.Outcome State Fault Refusal) : Prop :=
  ∃ r : Ended, o = finish r ∧ r.1.rtcMarks = s.rtcMarks

theorem keepsRtc_finish {s : State} {r : Ended} (h : r.1.rtcMarks = s.rtcMarks) : KeepsRtc s (finish r) := ⟨r, rfl, h⟩

theorem keepsRtc_raise (s : State) (e : ErrCode) : KeepsRtc s (finish (raise s e)) := keepsRtc_finish rfl

theorem writeReg_rtcMarks (s : State) (r : Reg) (v : Word) : (writeReg s r v).rtcMarks = s.rtcMarks := by
  obtain ⟨hstate, hdev, -⟩ := writeReg_frame s r v
  rw [State.rtcMarks, hstate, hdev]
  rfl

theorem writeEach_rtcMarks (a : DevAddr) (l : List RegWrite) (s : State) : (writeEach a l s).2.rtcMarks = s.rtcMarks := by
  rw [(writeEach_spec a l s).1]
  rfl

theorem pollReady_rtcMarks (k : Nat) (s : State) : (pollReady k s).2.rtcMarks = s.rtcMarks := by
  obtain ⟨n, -, hs, -⟩ := pollReady_spec k s
  rw [hs]
  rfl

theorem Ended.andThen_rtcMarks {s : State} {r : Ended} {f : State → Ended} (hr : r.1.rtcMarks = s.rtcMarks)
    (hf : ∀ u, (f u).1.rtcMarks = u.rtcMarks) : (r.andThen f).1.rtcMarks = s.rtcMarks := by
  by_cases h : r.2 = .ok
  · rw [Ended.andThen_ok h, hf, hr]
  · rw [Ended.andThen_raised h, hr]

theorem stageT_rtcMarks (s : State) : (stageT s).1.rtcMarks = s.rtcMarks := by
  unfold stageT
  split
  · split <;> rfl
  · rfl

theorem stageP_rtcMarks (s : State) : (stageP s).1.rtcMarks = s.rtcMarks := by
  unfold stageP
  split
  · split <;> rfl
  · rfl

theorem stageH_rtcMarks (s : State) : (stageH s).1.rtcMarks = s.rtcMarks := by
  unfold stageH
  split
  · split <;> rfl
  · rfl

theorem stageG_rtcMarks (s : State) : (stageG s).1.rtcMarks = s.rtcMarks := by
  unfold stageG
  split
  · split <;> rfl
  · rfl

theorem stageAq_rtcMarks (s : State) : (stageAq s).1.rtcMarks = s.rtcMarks := by
  unfold stageAq
  split <;> rfl

theorem snsIdentify_rtcMarks (id : Byte) (s : State) : (snsIdentify id s).1.rtcMarks = s.rtcMarks := by
  unfold snsIdentify
  simp only
  split <;> rfl

theorem snsReadSample_rtcMarks (s : State) : (snsReadSample s).1.rtcMarks = s.rtcMarks := by
  unfold snsReadSample
  simp only
  split <;> simp [State.rtcMarks, memRead_eq, snsSample, State.stale, State.dropRaw]

theorem snsPollThenRead_rtcMarks (s : State) : (snsPollThenRead s).1.rtcMarks = s.rtcMarks := by
  have hpoll := pollReady_rtcMarks s.cfg.maxRetry.toNat s
  unfold snsPollThenRead
  simp only
  split
  · exact (snsReadSample_rtcMarks _).trans hpoll
  · exact hpoll
  · exact hpoll

theorem execGet_keepsRtc (rd : GReg) (idx : BitVec 8) (s : State) : KeepsRtc s (execGet rd idx s) := by
  unfold execGet
  split
  · exact keepsRtc_raise s _
  · exact keepsRtc_finish rfl

theorem execPut_keepsRtc (idx : BitVec 8) (rs : GReg) (s : State) : KeepsRtc s (execPut idx rs s) := by
  unfold execPut
  split
  · exact keepsRtc_raise s _
  · split
    · exact keepsRtc_raise s _
    · exact keepsRtc_finish (writeReg_rtcMarks s _ _)

theorem execBcdenc_keepsRtc (rd rs : GReg) (s : State) : KeepsRtc s (execBcdenc rd rs s) := by
  unfold execBcdenc
  simp only
  split
  · exact keepsRtc_raise s _
  · exact keepsRtc_finish rfl

theorem execBcddec_keepsRtc (rd rs : GReg) (s : State) : KeepsRtc s (execBcddec rd rs s) := by
  unfold execBcddec
  simp only
  split
  · exact keepsRtc_raise s _
  · exact keepsRtc_finish rfl

theorem execWday_keepsRtc (rd : GReg) (s : State) : KeepsRtc s (execWday rd s) := by
  unfold execWday
  split
  · exact keepsRtc_finish rfl
  · exact keepsRtc_raise s _

theorem execTpack_keepsRtc (s : State) : KeepsRtc s (execTpack s) := by
  unfold execTpack
  split
  · exact keepsRtc_finish (by simp [State.rtcMarks])
  · exact keepsRtc_raise s _

theorem execSnsid_keepsRtc (s : State) : KeepsRtc s (execSnsid s) := by
  unfold execSnsid
  simp only
  split
  · exact keepsRtc_finish (snsIdentify_rtcMarks _ _)
  · exact keepsRtc_finish rfl
  · exact keepsRtc_finish rfl

theorem execSnsrst_keepsRtc (s : State) : KeepsRtc s (execSnsrst s) := by
  unfold execSnsrst
  simp only
  split
  · split <;> exact keepsRtc_finish rfl
  · exact keepsRtc_raise s _

theorem execSnscfg_keepsRtc (s : State) : KeepsRtc s (execSnscfg s) := by
  have hwrites := writeEach_rtcMarks s.params.snsAddr (s.params.cfgWrites s.cfg.sensor) s
  unfold execSnscfg
  simp only
  split
  · split <;> exact keepsRtc_finish hwrites
  · exact keepsRtc_raise s _

theorem execSnscal_keepsRtc (s : State) : KeepsRtc s (execSnscal s) := by
  unfold execSnscal
  simp only
  split
  · split <;>
      exact keepsRtc_finish (by simp [State.rtcMarks, memRead_eq, snsCalibrate, State.stale, State.dropCal])
  · exact keepsRtc_raise s _

theorem execSnsacq_keepsRtc (s : State) : KeepsRtc s (execSnsacq s) := by
  have hwrites := writeEach_rtcMarks s.params.snsAddr (s.params.triggerWrites s.cfg.sensor) (s.setPolls 0)
  unfold execSnsacq
  simp only
  split
  · split
    · exact keepsRtc_finish ((snsPollThenRead_rtcMarks _).trans hwrites)
    · exact keepsRtc_finish hwrites
  · exact keepsRtc_raise s _

theorem execCmpall_keepsRtc (s : State) : KeepsRtc s (execCmpall s) :=
  keepsRtc_finish <|
    Ended.andThen_rtcMarks
      (Ended.andThen_rtcMarks
        (Ended.andThen_rtcMarks (Ended.andThen_rtcMarks (stageT_rtcMarks s) stageP_rtcMarks) stageH_rtcMarks)
        stageG_rtcMarks)
      stageAq_rtcMarks

theorem execI2cwr_keepsRtc (addr : DevAddr) (reg : RegOffset) (len : Nat) (s : State) :
    KeepsRtc s (execI2cwr addr reg len s) := by
  unfold execI2cwr
  simp only
  split
  · split <;> exact keepsRtc_finish rfl
  · exact keepsRtc_raise s _

theorem execI2crd_keepsRtc (addr : DevAddr) (reg : RegOffset) (len : Nat) (s : State) :
    KeepsRtc s (execI2crd addr reg len s) := by
  unfold execI2crd
  simp only
  split
  · split <;> exact keepsRtc_finish rfl
  · exact keepsRtc_raise s _

theorem exec_keepsRtc {i : Instr} (s : State) (hrd : i ≠ .rtcrd) (hset : i ≠ .rtcset) : KeepsRtc s (exec i s) := by
  cases i with
  | rtcrd | rtcset => contradiction
  | nop | ldi | lui | tvalid | tunpack => exact keepsRtc_finish rfl
  | get rd idx => exact execGet_keepsRtc rd idx s
  | put idx rs => exact execPut_keepsRtc idx rs s
  | bcdenc rd rs => exact execBcdenc_keepsRtc rd rs s
  | bcddec rd rs => exact execBcddec_keepsRtc rd rs s
  | wday rd => exact execWday_keepsRtc rd s
  | tpack => exact execTpack_keepsRtc s
  | snsid => exact execSnsid_keepsRtc s
  | snsrst => exact execSnsrst_keepsRtc s
  | snscfg => exact execSnscfg_keepsRtc s
  | snscal => exact execSnscal_keepsRtc s
  | snsacq => exact execSnsacq_keepsRtc s
  | cmpt => exact keepsRtc_finish (stageT_rtcMarks s)
  | cmpp => exact keepsRtc_finish (stageP_rtcMarks s)
  | cmph => exact keepsRtc_finish (stageH_rtcMarks s)
  | cmpg => exact keepsRtc_finish (stageG_rtcMarks s)
  | cmpaq => exact keepsRtc_finish (stageAq_rtcMarks s)
  | cmpall => exact execCmpall_keepsRtc s
  | i2cwr addr reg len => exact execI2cwr_keepsRtc addr reg len s
  | i2crd addr reg len => exact execI2crd_keepsRtc addr reg len s

/-! ### The transition table (R186) -/

theorem rtcMove_of_keeps {i : Instr} {st : RtcState} {dev : DeviceStatus} {e : ErrCode} {valid : Prop} (hrd : i ≠ .rtcrd)
    (hset : i ≠ .rtcset) : RtcMove st dev i e valid st dev := by
  cases i with
  | rtcrd | rtcset => contradiction
  | _ => exact ⟨rfl, rfl⟩

/-- RTCRD's rows. -/
theorem rtcrd_moves (s : State) :
    ∃ t, exec .rtcrd s = .next t ∧
      RtcMove s.rtcState s.rtcDev .rtcrd t.err (validTime t.time s.cfg.epoch) t.rtcState t.rtcDev ∧
      (t.err = .ok → decodesTo (fun k => t.buf[k] &&& s.params.rtcDataMask[k]) t.time) := by
  by_cases hans : ∃ c : Fin 7 → Byte, s.bus.answer s.timeRead = .ack (List.ofFn c)
  · obtain ⟨c, hans⟩ := hans
    refine ⟨_, exec_rtcrd_accepted hans, .inl ?_, fun _ => ?_⟩
    · simp only [State.complete_err, State.complete_time, State.complete_rtcState, State.complete_rtcDev, State.storeTime_time,
        State.storeTime_rtcState, State.storeTime_rtcDev, true_and, and_true]
      exact ⟨judge_of_validTime, judge_of_not_validTime⟩
    · have hbuf : ∀ k : Fin 7, (storeBytes s.buf 0 (List.ofFn c))[k] = c k := fun k =>
        getElem_storeBytes_ofFn s.buf 0 c k (by omega) (Nat.zero_add _).symm
      simp only [State.complete_buf, State.complete_time, State.storeTime_buf, State.storeTime_time, State.setBus_buf, hbuf]
      exact decodesTo_ofBcd _
  · exact ⟨_, exec_rtcrd_refused (fun c hc => hans ⟨c, hc⟩), .inr ⟨rfl, rfl, rfl⟩, nofun⟩

/-- RTCSET's rows. -/
theorem rtcset_moves (s : State) :
    ∃ t, exec .rtcset s = .next t ∧
      RtcMove s.rtcState s.rtcDev .rtcset t.err (validTime t.time s.cfg.epoch) t.rtcState t.rtcDev := by
  obtain ⟨t, hexec, hout⟩ := exec_rtcset_outcome s
  refine ⟨t, hexec, ?_⟩
  cases hout with
  | refused h => simp [RtcMove, h]
  | outOfRange h => simp [RtcMove, rtcRefused_iff, h]
  | busFailure hset b => simp [RtcMove, rtcRefused_iff, hset.pastGuard]
  | differs hset b c => simp [RtcMove, rtcRefused_iff, hset.pastGuard]
  | confirmed hset c hw => simp [RtcMove, rtcRefused_iff, hset.pastGuard]

/-- Settles O31: RTCRD and RTCSET by their rows, every other command by what it leaves alone. -/
theorem rtcMachineFollowsItsTable : Obligations.RtcMachineFollowsItsTable := by
  unfold Obligations.RtcMachineFollowsItsTable
  intro i s
  by_cases hrd : i = .rtcrd
  · subst hrd
    obtain ⟨t, hexec, hmove, hdecodes⟩ := rtcrd_moves s
    exact ⟨t, hexec, hmove, fun _ => hdecodes⟩
  · by_cases hset : i = .rtcset
    · subst hset
      obtain ⟨t, hexec, hmove⟩ := rtcset_moves s
      exact ⟨t, hexec, hmove, nofun⟩
    · obtain ⟨r, hexec, hkeeps⟩ := exec_keepsRtc s hrd hset
      obtain ⟨hstate, hdev⟩ := Prod.mk.inj hkeeps
      refine ⟨_, hexec.trans (finish_eq r), ?_, fun h => absurd h hrd⟩
      rw [State.complete_rtcState, State.complete_rtcDev, hstate, hdev]
      exact rtcMove_of_keeps hrd hset

end Sys2Proof.Machine

/-! PROOF. The sensor sequencer (R190-R217): what each of its five commands does by the answers the bus gives it, what SNSCFG and
SNSACQ do on a Simulated sensor, and the transition table of the sensor state machine. -/

namespace Sys2Proof.Machine

open Sys2Proof.Config (Answer Request RegWrite Transaction)

/-! ### What pseudocode writes -/

/-- Pseudocode that led from `s` to `t` wrote no register but those of `W`, and nothing of its surroundings but the bus. -/
def WritesOnly (W : Reg → Prop) (s t : State) : Prop := t.errmask = s.errmask ∧ SameBut W s t ∧ SameOutside s t

theorem WritesOnly.refl (W : Reg → Prop) (s : State) : WritesOnly W s s := ⟨rfl, fun _ _ => rfl, .refl s⟩

section
variable {W : Reg → Prop} {s t : State} (h : WritesOnly W s t)
include h

theorem WritesOnly.trans {u : State} (h' : WritesOnly W t u) : WritesOnly W s u := by
  obtain ⟨hmask, hsame, hout⟩ := h
  obtain ⟨hmask', hsame', hout'⟩ := h'
  exact ⟨hmask'.trans hmask, hsame.trans hsame', hout.trans hout'⟩

theorem WritesOnly.completes (e : ErrCode) : Completes e W s (t.complete e) := by
  obtain ⟨hmask, hsame, hout⟩ := h
  exact completes_of (r := raise t e) rfl hmask (fun r _ _ hr => hsame r hr) hout

theorem WritesOnly.setBus (b : Bus) : WritesOnly W s (t.setBus b) :=
  h.trans ⟨rfl, fun r _ => readReg_setBus t b r, rfl, rfl, rfl⟩

theorem WritesOnly.setFlags (hW : W .flags) (f : Flags) : WritesOnly W s (t.setFlags f) :=
  h.trans ⟨rfl, fun r hr => readReg_setFlags t f r fun e => hr (e ▸ hW), rfl, rfl, rfl⟩

theorem WritesOnly.setPolls (hW : W .lastPolls) (n : BitVec 8) : WritesOnly W s (t.setPolls n) :=
  h.trans ⟨rfl, fun r hr => readReg_setPolls t n r fun e => hr (e ▸ hW), rfl, rfl, rfl⟩

theorem WritesOnly.setSns (hW : W .snsState) (hW' : W .snsDev) (st : SnsState) (dev : DeviceStatus) :
    WritesOnly W s (t.setSns st dev) :=
  h.trans ⟨rfl, fun r hr => readReg_setSns t st dev r (fun e => hr (e ▸ hW)) (fun e => hr (e ▸ hW')), rfl, rfl, rfl⟩

/-- A move of SNS_STATE that keeps SNS_DEV. -/
theorem WritesOnly.setSnsState (hW : W .snsState) (st : SnsState) : WritesOnly W s (t.setSns st t.snsDev) := by
  refine h.trans ⟨rfl, fun r hr => ?_, rfl, rfl, rfl⟩
  by_cases hdev : r = .snsDev
  · rw [hdev]
    rfl
  · exact readReg_setSns t st _ r (fun e => hr (e ▸ hW)) hdev

theorem WritesOnly.setRaw (hW : ∀ r, rawReg r → W r) (x : RawSample) : WritesOnly W s (t.setRaw x) := by
  refine h.trans ⟨rfl, fun r hr => ?_, rfl, rfl, rfl⟩
  cases r with
  | rawT | rawP | rawH | rawG | rawGr | rawHs => exact absurd (hW _ (by simp [rawReg])) hr
  | _ => rfl

theorem WritesOnly.storeBuf {k : Nat} {bs : List Byte} (hW : ∀ r, bufRange k (k + bs.length) r → W r) :
    WritesOnly W s (t.storeBuf k bs) :=
  h.trans ⟨rfl, fun r hr => readReg_storeBuf_outside t fun hin => hr (hW r hin), rfl, rfl, rfl⟩

theorem WritesOnly.storeCalbuf {bs : List Byte} (hW : ∀ r, calRange bs.length r → W r) :
    WritesOnly W s (t.storeCalbuf 0 bs) := by
  refine h.trans ⟨rfl, fun r hr => readReg_storeCalbuf t 0 bs r fun i hi hin => hr (hW r ⟨i, hi, ?_⟩), rfl, rfl, rfl⟩
  omega

end

/-! ### What FLAGS reads after the sensor commands' updates (R29, R31) -/

/-- What holds of every choice of the seven bits holds of FLAGS. -/
theorem Flags.of_bits {P : Flags → Prop} (h : ∀ cal raw t p h g aq, P ⟨cal, raw, t, p, h, g, aq⟩) : ∀ f, P f :=
  fun _ => h ..

theorem Flags.toWord_invalidate : ∀ f : Flags, f.invalidate.toWord = 0 :=
  of_bits (by decide)

theorem Flags.toWord_acceptCal :
    ∀ f : Flags, (Flags.stale { f with calValid := true }).toWord = (f.toWord &&& 0x02) ||| 0x01 :=
  of_bits (by decide)

theorem Flags.toWord_dropCal : ∀ f : Flags, Flags.toWord { f with calValid := false } = f.toWord &&& 0x7E :=
  of_bits (by decide)

theorem Flags.toWord_acceptRaw :
    ∀ f : Flags, (Flags.stale { f with rawValid := true }).toWord = (f.toWord &&& 0x01) ||| 0x02 :=
  of_bits (by decide)

theorem Flags.toWord_dropRaw : ∀ f : Flags, Flags.toWord { f with rawValid := false } = f.toWord &&& 0x7D :=
  of_bits (by decide)

/-! ### Blocks read from the sensor (R64) -/

/-- A read of `n` bytes is not accepted where the answer is a NAK or has another length. -/
theorem acceptRead_unaccepted {n : Nat} {ans : Answer} (h : ∀ bs, bs.length = n → ans ≠ .ack bs) :
    acceptRead n ans = .nak ∨ acceptRead n ans = .short :=
  acceptRead_refused fun _ => h _ List.length_ofFn

theorem acceptRead_accepted {n : Nat} {bs : List Byte} (h : bs.length = n) : acceptRead n (.ack bs) = .bytes bs :=
  acceptRead_bytes.2 ⟨rfl, h⟩

theorem ack_ne_of_not_single {ans : Answer} (h : ∀ b : Byte, ans ≠ .ack [b]) (bs : List Byte) (hlen : bs.length = 1) :
    ans ≠ .ack bs := by
  obtain ⟨b, rfl⟩ := List.length_eq_one_iff.1 hlen
  exact h b

/-- Byte `i` of a buffer after a block was stored at its start. -/
theorem getElem_storeBytes_start {n : Nat} (v : Vector Byte n) {bs : List Byte} (i : Fin n) (hi : i.val < bs.length) :
    (storeBytes v 0 bs)[i] = bs.getD i 0 := by
  rw [List.getD_eq_getElem _ _ hi, Fin.getElem_fin, getElem_storeBytes, dif_pos ⟨Nat.zero_le _, by omega⟩]
  rfl

/-- The read of the identity byte that SNSID makes (R195). -/
abbrev State.idRead (s : State) : Request := .read s.params.snsAddr s.params.chipIdReg 1

/-- The write that SNSRST makes (R198). -/
abbrev State.resetWrite (s : State) : Request := .write s.params.snsAddr s.params.softResetReg [s.params.softResetCmd]

/-- The read of the coefficient block that SNSCAL makes (R208). -/
abbrev State.calRead (s : State) : Request := .read s.params.snsAddr s.params.calBase s.params.calLen

/-! ### SNSID (R195, R196) -/

section
variable {s : State}

theorem exec_snsid_identity (h : s.bus.answer s.idRead = .ack [s.params.chipIdValue]) :
    exec .snsid s = .next ((((s.setBus (s.bus.after s.idRead)).storeBuf 0 [s.params.chipIdValue]).setSns
      .identityChecked .uninitialized).complete .ok) := by
  simp only [exec, execSnsid, memRead_eq, State.setSns_bus, h, acceptRead_accepted (List.length_singleton)]
  exact congrArg finish (if_pos rfl)

theorem exec_snsid_mismatch {b : Byte} (h : s.bus.answer s.idRead = .ack [b]) (hb : b ≠ s.params.chipIdValue) :
    exec .snsid s = .next ((((s.setBus (s.bus.after s.idRead)).storeBuf 0 [b]).setSns
      .halted .identityMismatch).complete .identityMismatch) := by
  simp only [exec, execSnsid, memRead_eq, State.setSns_bus, h, acceptRead_accepted (List.length_singleton)]
  exact congrArg finish (if_neg hb)

theorem exec_snsid_refused (h : ∀ b, s.bus.answer s.idRead ≠ .ack [b]) :
    exec .snsid s = .next (((s.setBus (s.bus.after s.idRead)).setSns .halted .notResponding).complete .busError) := by
  rcases acceptRead_unaccepted (ack_ne_of_not_single h) with hread | hread <;>
    · simp only [exec, execSnsid, memRead_eq, State.setSns_bus, hread]
      rfl

theorem snsid_stored_completes (b : Byte) (st : SnsState) (dev : DeviceStatus) (e : ErrCode) :
    Completes e (fun r => r = .buf 0 ∨ r = .snsState ∨ r = .snsDev) s
      ((((s.setBus (s.bus.after s.idRead)).storeBuf 0 [b]).setSns st dev).complete e) := by
  have hbyte : ∀ r, bufRange 0 (0 + [b].length) r → r = .buf 0 ∨ r = .snsState ∨ r = .snsDev := by
    rintro r ⟨i, rfl, -, hi⟩
    exact .inl (congrArg Reg.buf (Fin.ext (Nat.lt_one_iff.1 hi)))
  exact ((((WritesOnly.refl _ s).setBus _).storeBuf hbyte).setSns (by simp) (by simp) st dev).completes e

end

/-- Settles O37: SNSID by the answer to its one read. -/
theorem snsidVerifiesTheIdentity : Obligations.SnsidVerifiesTheIdentity := by
  unfold Obligations.SnsidVerifiesTheIdentity
  intro s
  refine ⟨fun h => ?_, fun b h hb => ?_, fun h => ?_⟩
  · exact ⟨_, exec_snsid_identity h, snsid_stored_completes .., rfl, getElem_storeBytes_single s.buf 0 _, rfl, rfl⟩
  · exact ⟨_, exec_snsid_mismatch h hb, snsid_stored_completes .., rfl, getElem_storeBytes_single s.buf 0 b, rfl, rfl⟩
  · exact ⟨_, exec_snsid_refused h,
      (((WritesOnly.refl _ s).setBus _).setSns (by simp) (by simp) _ _).completes _, rfl, rfl, rfl⟩

/-! ### SNSRST (R198, R199) -/

section
variable {s : State} (hst : s.snsState = .identityChecked)
include hst

theorem exec_snsrst_acked (h : s.bus.answer s.resetWrite ≠ .nak) :
    exec .snsrst s = .next ((((s.setFlags s.flags.invalidate).setBus (s.bus.after s.resetWrite)).setSns
      .reset s.snsDev).complete .ok) := by
  simp [exec, execSnsrst, memWrite_eq, hst, h]

theorem exec_snsrst_nak (h : s.bus.answer s.resetWrite = .nak) :
    exec .snsrst s = .next ((((s.setFlags s.flags.invalidate).setBus (s.bus.after s.resetWrite)).setSns
      .halted .notResponding).complete .busError) := by
  simp [exec, execSnsrst, memWrite_eq, hst, h]

end

/-- Settles O38: SNSRST by the answer to its one write. -/
theorem snsrstResetsTheSensor : Obligations.SnsrstResetsTheSensor := by
  unfold Obligations.SnsrstResetsTheSensor
  intro s hst
  refine ⟨fun h => ?_, fun h => ?_⟩
  · have hw := ((WritesOnly.refl (fun r => r = .flags ∨ r = .snsState) s).setFlags (by simp) s.flags.invalidate).setBus
      (s.bus.after s.resetWrite)
    exact ⟨_, exec_snsrst_acked hst h, (hw.setSnsState (by simp) .reset).completes .ok, rfl,
      Flags.toWord_invalidate _, rfl⟩
  · have hw := ((WritesOnly.refl (fun r => r = .flags ∨ r = .snsState ∨ r = .snsDev) s).setFlags (by simp)
      s.flags.invalidate).setBus (s.bus.after s.resetWrite)
    exact ⟨_, exec_snsrst_nak hst h, (hw.setSns (by simp) (by simp) _ _).completes _, rfl,
      Flags.toWord_invalidate _, rfl, rfl⟩

/-! ### SNSCFG (R201, R205) -/

/-- The configuration writes that SNSCFG makes: whether all were acknowledged, and the state after them (R201). -/
abbrev State.configured (s : State) : Bool × State := writeEach s.params.snsAddr (s.params.cfgWrites s.cfg.sensor) s

section
variable {s : State} (hst : s.snsState = .reset)
include hst

theorem exec_snscfg_acked (h : s.configured.1 = true) :
    exec .snscfg s = .next ((s.configured.2.setSns .configured s.configured.2.snsDev).complete .ok) := by
  simp [exec, execSnscfg, hst, h]

theorem exec_snscfg_nak (h : s.configured.1 = false) :
    exec .snscfg s = .next ((s.configured.2.setSns .halted .notResponding).complete .busError) := by
  simp [exec, execSnscfg, hst, h]

end

theorem writeEach_writesOnly (W : Reg → Prop) (a : DevAddr) (l : List RegWrite) (s : State) :
    WritesOnly W s (writeEach a l s).2 := by
  rw [(writeEach_spec a l s).1]
  exact (WritesOnly.refl W s).setBus _

/-- Settles O39: the writes made, and SNSCFG by whether all were acknowledged. -/
theorem snscfgWritesTheConfiguration : Obligations.SnscfgWritesTheConfiguration := by
  unfold Obligations.SnscfgWritesTheConfiguration
  intro s hst
  obtain ⟨made, hs, hlog, horder, hall, hnak⟩ := writeEach_made s.params.snsAddr (s.params.cfgWrites s.cfg.sensor) s
  have hbus : s.configured.2.bus = s.bus.afterAll made := congrArg State.bus hs
  cases hok : s.configured.1 with
  | true =>
    obtain ⟨hlen, hacked⟩ := hall hok
    exact ⟨_, made, exec_snscfg_acked hst hok, hlog, hbus, horder,
      .inl ⟨hlen, hacked, ((writeEach_writesOnly (· = .snsState) _ _ s).setSnsState rfl _).completes _, rfl⟩⟩
  | false =>
    obtain ⟨hlen, x, hlast, hx⟩ := hnak hok
    have hmem : x ∈ made := List.mem_of_getLast? hlast
    exact ⟨_, made, exec_snscfg_nak hst hok, hlog, hbus, horder,
      .inr ⟨List.length_pos_of_mem hmem, hlen, ⟨x, hmem, hx⟩,
        ((writeEach_writesOnly _ _ _ s).setSns (by simp) (by simp) _ _).completes _, rfl, rfl⟩⟩

/-! ### SNSCAL (R208, R209) -/

section
variable {s : State} (hst : s.snsState = .configured)
include hst

theorem exec_snscal_accepted {bs : List Byte} (h : s.bus.answer s.calRead = .ack bs) (hlen : bs.length = s.params.calLen) :
    exec .snscal s = .next ((((s.setBus (s.bus.after s.calRead)).acceptCal bs).setSns .ready .ready).complete .ok) := by
  simp only [exec, execSnscal, memRead_eq, if_pos hst, h, acceptRead_accepted hlen]
  rfl

theorem exec_snscal_nak (h : s.bus.answer s.calRead = .nak) :
    exec .snscal s =
      .next (((s.setBus (s.bus.after s.calRead)).dropCal.setSns .halted .notResponding).complete .busError) := by
  simp only [exec, execSnscal, memRead_eq, if_pos hst, h]
  rfl

theorem exec_snscal_short {bs : List Byte} (h : s.bus.answer s.calRead = .ack bs) (hlen : bs.length ≠ s.params.calLen) :
    exec .snscal s =
      .next (((s.setBus (s.bus.after s.calRead)).dropCal.setSns .halted .calibrationInvalid).complete
        .calibrationInvalid) := by
  simp only [exec, execSnscal, memRead_eq, if_pos hst, h, acceptRead, if_neg hlen]
  rfl

end

theorem acceptCal_completes (s : State) (b : Bus) {bs : List Byte} {n : Nat} (hlen : bs.length = n) :
    Completes .ok (fun r => calRange n r ∨ r = .flags ∨ r = .snsState ∨ r = .snsDev) s
      ((((s.setBus b).acceptCal bs).setSns .ready .ready).complete .ok) :=
  ((((((WritesOnly.refl _ s).setBus b).storeCalbuf fun _ hr => .inl (hlen ▸ hr)).setFlags (by simp) _).setFlags
    (by simp) _).setSns (by simp) (by simp) _ _).completes .ok

theorem dropCal_completes (s : State) (b : Bus) (dev : DeviceStatus) (e : ErrCode) :
    Completes e (fun r => r = .flags ∨ r = .snsState ∨ r = .snsDev) s
      (((s.setBus b).dropCal.setSns .halted dev).complete e) :=
  ((((WritesOnly.refl _ s).setBus b).setFlags (by simp) _).setSns (by simp) (by simp) _ _).completes e

/-- Settles O41: SNSCAL by the answer to its one read. -/
theorem snscalLoadsTheCoefficients : Obligations.SnscalLoadsTheCoefficients := by
  unfold Obligations.SnscalLoadsTheCoefficients
  intro s hst
  refine ⟨fun bs h hlen => ?_, fun h => ?_, fun bs h hlen => ?_⟩
  · exact ⟨_, exec_snscal_accepted hst h hlen, acceptCal_completes s _ hlen, rfl,
      fun i hi => getElem_storeBytes_start s.calbuf i (hlen ▸ hi), Flags.toWord_acceptCal s.flags, rfl, rfl⟩
  · exact ⟨_, exec_snscal_nak hst h, dropCal_completes .., rfl, Flags.toWord_dropCal s.flags, rfl, rfl⟩
  · exact ⟨_, exec_snscal_short hst h hlen, dropCal_completes .., rfl, Flags.toWord_dropCal s.flags, rfl, rfl⟩

/-! ### Sensor commands out of order (R191, R217, R273) -/

theorem exec_outOfOrder {i : Instr} {need : SnsState} {s : State} (hi : snsRequired i = some need) (hs : s.snsState ≠ need) :
    exec i s = .next (s.complete .sequence) := by
  cases i with
  | snsrst | snscfg | snscal | snsacq =>
    obtain rfl := Option.some.inj hi
    exact if_neg hs
  | _ => contradiction

/-- Settles O44: the check of SNS_STATE raises Sequence before anything is written. -/
theorem outOfOrderSensorCommandsAreRefused : Obligations.OutOfOrderSensorCommandsAreRefused := by
  unfold Obligations.OutOfOrderSensorCommandsAreRefused
  exact fun i need s hi hs => ⟨_, exec_outOfOrder hi hs, completes_raise s _⟩

/-- No sensor command but SNSID is accepted in Halted. -/
theorem snsRequired_ne_halted {i : Instr} {need : SnsState} (h : snsRequired i = some need) : need ≠ .halted := by
  cases i with
  | snsrst | snscfg | snscal | snsacq =>
    obtain rfl := Option.some.inj h
    nofun
  | _ => contradiction

/-- What a Simulated sensor that is present answers to a read of one byte (R72). -/
theorem State.simPresent.read_byte {s : State} {a : DevAddr} (h : s.simPresent a) (r : RegOffset) :
    s.bus.answer (.read a r 1) = .ack [s.deviceByte a r] := by
  obtain ⟨hkind, hmem, hfault⟩ := h
  rw [Bus.answer_simulated hkind, Bus.simAnswer_read hmem hfault]
  rfl

/-- Settles O45: SNSID's identity mismatch leaves Halted, in which the other four commands are out of order. -/
theorem identityMismatchHaltsTheSensor : Obligations.IdentityMismatchHaltsTheSensor := by
  unfold Obligations.IdentityMismatchHaltsTheSensor
  intro s hp hid
  obtain ⟨-, hmismatch, -⟩ := snsidVerifiesTheIdentity s
  obtain ⟨t, hexec, -, -, -, hstate, hdev⟩ := hmismatch _ (hp.read_byte _) hid
  refine ⟨t, hexec, hstate, hdev, fun i hi => ?_⟩
  obtain ⟨need, hneed⟩ : ∃ need, snsRequired i = some need := by
    simp only [List.mem_cons, List.not_mem_nil, or_false] at hi
    rcases hi with rfl | rfl | rfl | rfl <;> exact ⟨_, rfl⟩
  exact outOfOrderSensorCommandsAreRefused i need t hneed (hstate ▸ (snsRequired_ne_halted hneed).symm)

/-! ### A list of one-byte writes on the Simulated bus (R71, R201) -/

/-- MAP after a list of one-byte writes to a device, in list order. -/
def Memory.writeAll (m : Memory) (a : DevAddr) (l : List RegWrite) : Memory :=
  l.foldl (fun m w => m.write (busKey a w.1 0) w.2) m

theorem Memory.writeAll_append (m : Memory) (a : DevAddr) (l l' : List RegWrite) :
    m.writeAll a (l ++ l') = (m.writeAll a l).writeAll a l' := List.foldl_append

theorem Memory.wf_writeAll {m : Memory} (h : m.wf) (a : DevAddr) (l : List RegWrite) : (m.writeAll a l).wf := by
  induction l generalizing m with
  | nil => exact h
  | cons w l ih => exact ih (Memory.wf_write h (busKey_lt a w.1 0) w.2)

/-- A register that no entry of the list names keeps its byte. -/
theorem Memory.read_writeAll_other (m : Memory) {a d : DevAddr} {l : List RegWrite} {r : RegOffset}
    (h : d = a → ∀ w ∈ l, w.1 ≠ r) : (m.writeAll a l).read (busKey d r 0) = m.read (busKey d r 0) := by
  induction l generalizing m with
  | nil => rfl
  | cons w l ih =>
    refine (ih (m.write _ w.2) fun hd x hx => h hd x (.tail _ hx)).trans (Memory.read_write_other m w.2 fun hkey => ?_)
    obtain ⟨hd, hr⟩ := (busKey_inj r.isLt w.1.isLt).1 hkey
    exact h hd w (.head _) (BitVec.eq_of_toNat_eq hr.symm)

/-- A register that the list names holds the byte of its last entry. -/
theorem Memory.read_writeAll_last {m : Memory} (h : m.wf) {a : DevAddr} {before after : List RegWrite} {r : RegOffset}
    {v : Byte} (hlast : ∀ w ∈ after, w.1 ≠ r) :
    (m.writeAll a (before ++ (r, v) :: after)).read (busKey a r 0) = v := by
  rw [Memory.writeAll_append]
  exact (Memory.read_writeAll_other _ fun _ => hlast).trans (Memory.read_write_same (Memory.wf_writeAll h a before) _ v)

/-- The device bytes of a state whose MAP has taken a list of writes (R71). -/
theorem deviceByte_of_writeAll {s t : State} {a : DevAddr} {l : List RegWrite} (hwf : s.bus.map.wf)
    (hmap : t.bus.map = s.bus.map.writeAll a l) :
    (∀ before after r v, l = before ++ (r, v) :: after → (∀ w ∈ after, w.1 ≠ r) → t.deviceByte a r = v) ∧
      ∀ d r, (d = a → ∀ w ∈ l, w.1 ≠ r) → t.deviceByte d r = s.deviceByte d r := by
  refine ⟨fun before after r v hl hlast => ?_, fun d r hout => ?_⟩
  · rw [State.deviceByte, hmap, hl]
    exact Memory.read_writeAll_last hwf hlast
  · rw [State.deviceByte, hmap]
    exact Memory.read_writeAll_other _ hout

/-- A transaction leaves the devices of a Simulated bus answering. -/
theorem State.simPresent.after {s : State} {a : DevAddr} (h : s.simPresent a) (q : Request) :
    (s.setBus (s.bus.after q)).simPresent a := by
  obtain ⟨hkind, hmem, hfault⟩ := h
  exact ⟨Bus.after_simulated hkind q, by simpa using hmem, by simpa using hfault⟩

/-- A Simulated device that answers acknowledges every write of a list, and MAP takes them all (R71). -/
theorem writeEach_simPresent {s : State} {a : DevAddr} (h : s.simPresent a) (l : List RegWrite) :
    (writeEach a l s).1 = true ∧ (writeEach a l s).2.simPresent a ∧
      (writeEach a l s).2.bus.map = s.bus.map.writeAll a l := by
  induction l generalizing s with
  | nil => exact ⟨rfl, h, rfl⟩
  | cons w l ih =>
    obtain ⟨r, v⟩ := w
    obtain ⟨hok, hp, hmap⟩ := ih (h.after (.write a r [v]))
    obtain ⟨hkind, hmem, hfault⟩ := h
    have hack : s.bus.answer (.write a r [v]) = .ack [] := by
      rw [Bus.answer_simulated hkind, Bus.simAnswer_write hmem hfault]
    have hstep : writeEach a ((r, v) :: l) s = writeEach a l (s.setBus (s.bus.after (.write a r [v]))) := by
      simp [writeEach, memWrite_eq, hack]
    rw [hstep]
    refine ⟨hok, hp, hmap.trans ?_⟩
    rw [State.setBus_bus, Bus.after_map_of_write hkind hmem hfault]
    rfl

/-- Settles O40: every configuration write is acknowledged and stored. -/
theorem snscfgConfiguresASimulatedSensor : Obligations.SnscfgConfiguresASimulatedSensor := by
  unfold Obligations.SnscfgConfiguresASimulatedSensor
  intro s hst hp hwf
  obtain ⟨hok, -, hmap⟩ := writeEach_simPresent hp (s.params.cfgWrites s.cfg.sensor)
  exact ⟨_, exec_snscfg_acked hst hok, ((writeEach_writesOnly (· = .snsState) _ _ s).setSnsState rfl _).completes _, rfl,
    deviceByte_of_writeAll hwf hmap⟩

/-! ### The status polls (R213, R214) -/

/-- The read of the status register that SNSACQ polls with (R213). -/
abbrev State.statusRead (s : State) : Request := .read s.params.snsAddr s.params.statusReg 1

/-- The read of the sample (R213). -/
abbrev State.sampleRead (s : State) : Request := .read s.params.snsAddr s.params.rawBase s.params.rawLen

/-- The poll was answered with a status byte, and whether that has every bit of the mask is `yes`. -/
def StatusIs (mask : Byte) (x : Transaction) (yes : Bool) : Prop :=
  ∃ b : Byte, x.answer = .ack [b] ∧ (b &&& mask = mask ↔ yes = true)

/-- The polls that a poll loop has made where it ended as `e`: the last decides the end, none before it showed the data ready
(R213, R214). -/
def PollsEnd (mask : Byte) (polls : List Transaction) : PollEnd → Prop
  | .ready => ∃ x, polls.getLast? = some x ∧ StatusIs mask x true
  | .timeout => ∀ x ∈ polls, StatusIs mask x false
  | .busFailure => ∃ x, polls.getLast? = some x ∧ ∀ b : Byte, x.answer ≠ .ack [b]

/-- The transactions of at most `k` polls from state `s` that ended as `e`. -/
structure Polled (s : State) (k : Nat) (polls : List Transaction) (e : PollEnd) : Prop where
  requests : ∀ x ∈ polls, x.request = s.statusRead
  bound : polls.length ≤ k
  all : e = .timeout → polls.length = k
  earlier : ∀ x ∈ polls.dropLast, StatusIs s.params.readyMask x false
  ending : PollsEnd s.params.readyMask polls e
  log : (s.bus.afterAll polls).log = polls.reverse ++ s.bus.log

/-- The first poll, made now. -/
abbrev State.firstPoll (s : State) : Transaction := ⟨s.statusRead, s.bus.answer s.statusRead⟩

/-- The state after the first poll. -/
abbrev State.polled (s : State) : State := (s.setBus (s.bus.after s.statusRead)).countPoll

section
variable {s : State} {k : Nat}

theorem polled_single {e : PollEnd} (he : e ≠ .timeout) (hend : PollsEnd s.params.readyMask [s.firstPoll] e) :
    Polled s (k + 1) [s.firstPoll] e where
  requests x hx := by rw [List.mem_singleton.1 hx]
  bound := by simp
  all h := absurd h he
  earlier x hx := by simp at hx
  ending := hend
  log := by simp

theorem pollsEnd_cons {mask : Byte} {x : Transaction} {polls : List Transaction} {e : PollEnd} (hx : StatusIs mask x false)
    (h : PollsEnd mask polls e) : PollsEnd mask (x :: polls) e := by
  cases e with
  | timeout => exact List.forall_mem_cons.2 ⟨hx, h⟩
  | ready | busFailure =>
    obtain ⟨y, hy, hlast⟩ := h
    exact ⟨y, by simp [List.getLast?_cons, hy], hlast⟩

theorem polled_cons {e : PollEnd} {polls : List Transaction} (hfirst : StatusIs s.params.readyMask s.firstPoll false)
    (h : Polled s.polled k polls e) : Polled s (k + 1) (s.firstPoll :: polls) e where
  requests := List.forall_mem_cons.2 ⟨rfl, h.requests⟩
  bound := Nat.succ_le_succ h.bound
  all he := congrArg (· + 1) (h.all he)
  earlier x hx := by
    cases polls with
    | nil => simp at hx
    | cons y polls =>
      rcases List.mem_cons.1 hx with rfl | hx
      · exact hfirst
      · exact h.earlier x hx
  ending := pollsEnd_cons hfirst h.ending
  log := by
    have hlog : ((s.bus.after s.statusRead).afterAll polls).log = polls.reverse ++ (s.bus.after s.statusRead).log := h.log
    rw [Bus.afterAll_cons, hlog]
    simp

end

/-- A read of one byte is accepted with the byte answered. -/
theorem acceptRead_byte {ans : Answer} {bs : List Byte} (h : acceptRead 1 ans = .bytes bs) :
    ans = .ack [byteAt bs 0] := by
  obtain ⟨rfl, hlen⟩ := acceptRead_bytes.1 h
  obtain ⟨b, rfl⟩ := List.length_eq_one_iff.1 hlen
  rfl

/-- LAST_POLLS after one poll and `n` more. -/
theorem add_one_add_ofNat (x : BitVec 8) (n : Nat) : x + 1 + BitVec.ofNat 8 n = x + BitVec.ofNat 8 (n + 1) := by
  rw [BitVec.add_assoc, BitVec.add_comm 1, BitVec.ofNat_add]
  rfl

/-- All that `k` bounded polls do: they make the transactions that `Polled` describes, and count them in LAST_POLLS. -/
theorem pollReady_polled (k : Nat) (s : State) :
    ∃ polls, Polled s k polls (pollReady k s).1 ∧
      (pollReady k s).2 = (s.setBus (s.bus.afterAll polls)).setPolls (s.lastPolls + BitVec.ofNat 8 polls.length) := by
  induction k generalizing s with
  | zero =>
    refine ⟨[], ⟨by simp, by simp, by simp, by simp, by simp [pollReady, PollsEnd], rfl⟩, ?_⟩
    simp [pollReady, State.setBus, State.setPolls]
  | succ k ih =>
    have failed : (∀ bs, acceptRead 1 (s.bus.answer s.statusRead) ≠ .bytes bs) →
        ∃ polls, Polled s (k + 1) polls .busFailure ∧
          s.polled = (s.setBus (s.bus.afterAll polls)).setPolls (s.lastPolls + BitVec.ofNat 8 polls.length) := fun h =>
      ⟨[s.firstPoll], polled_single nofun ⟨_, rfl, fun b hb => h [b] (acceptRead_bytes.2 ⟨hb, rfl⟩)⟩, rfl⟩
    simp only [pollReady, memRead_eq]
    split
    · next bs hbs =>
      have hans := acceptRead_byte hbs
      split
      · next hready =>
        have hshows : StatusIs s.params.readyMask s.firstPoll true := ⟨_, hans, by simpa [dataReady] using hready⟩
        exact ⟨[s.firstPoll], polled_single nofun ⟨_, rfl, hshows⟩, rfl⟩
      · next hready =>
        have hshows : StatusIs s.params.readyMask s.firstPoll false := ⟨_, hans, by simpa [dataReady] using hready⟩
        obtain ⟨polls, hpolled, hstate⟩ := ih s.polled
        refine ⟨s.firstPoll :: polls, polled_cons hshows hpolled, hstate.trans ?_⟩
        simp only [State.countPoll, State.setPolls, State.setBus, Bus.afterAll_cons, List.length_cons,
          add_one_add_ofNat]
    · next hnak => exact failed fun bs => by simp [hnak]
    · next hshort => exact failed fun bs => by simp [hshort]

/-! ### SNSACQ by the answers it gets (R213-R216) -/

/-- The trigger writes that SNSACQ makes: whether all were acknowledged, and the state after them (R213). -/
abbrev State.triggered (s : State) : Bool × State :=
  writeEach s.params.snsAddr (s.params.triggerWrites s.cfg.sensor) (s.setPolls 0)

/-- SNSACQ with an accepted sample: the bus `b` that its transactions left, the number of its polls and the sample's bytes. -/
def State.sampled (s : State) (b : Bus) (polls : BitVec 8) (bs : List Byte) : State :=
  (((s.setBus b).setPolls polls).storeBuf 0 bs).acceptRaw (rawOf (s.params.rawExtract bs))

@[simp] theorem State.sampled_snsState (s : State) (b : Bus) (polls : BitVec 8) (bs : List Byte) :
    (s.sampled b polls bs).snsState = s.snsState := by
  simp [State.sampled, State.acceptRaw, State.stale]

@[simp] theorem State.sampled_snsDev (s : State) (b : Bus) (polls : BitVec 8) (bs : List Byte) :
    (s.sampled b polls bs).snsDev = s.snsDev := by
  simp [State.sampled, State.acceptRaw, State.stale]

/-- SNSACQ without an accepted sample (R215). -/
def State.unsampled (s : State) (b : Bus) (polls : BitVec 8) : State :=
  (((s.setBus b).setPolls polls).dropRaw).setSns .halted .notResponding

theorem sampled_completes (s : State) (b : Bus) (polls : BitVec 8) {bs : List Byte} {n : Nat} (hlen : bs.length = n) :
    Completes .ok (fun r => rawReg r ∨ bufRange 0 n r ∨ r = .flags ∨ r = .lastPolls) s
      ((s.sampled b polls bs).complete .ok) :=
  ((((((WritesOnly.refl _ s).setBus b).setPolls (by simp) polls).storeBuf fun r hr =>
    .inr (.inl (by rwa [Nat.zero_add, hlen] at hr))).setRaw (fun _ => .inl) _).setFlags (by simp) _).setFlags (by simp) _
    |>.completes .ok

theorem unsampled_completes (s : State) (b : Bus) (polls : BitVec 8) (e : ErrCode) :
    Completes e (fun r => r = .flags ∨ r = .lastPolls ∨ r = .snsState ∨ r = .snsDev) s
      ((s.unsampled b polls).complete e) :=
  (((((WritesOnly.refl _ s).setBus b).setPolls (by simp) polls).setFlags (by simp) _).setSns (by simp) (by simp) _ _)
    |>.completes e

/-- The RAW registers of an extracted sample hold it (R213). -/
theorem holdsSample_of_raw {t : State} {x : Config.Extracted} (h : t.raw = rawOf x) : holdsSample x t := by
  simp only [holdsSample, readReg, h, rawOf, word, BitVec.zeroExtend, BitVec.toNat_setWidth, BitVec.toNat_ofNat,
    true_and]
  omega

section
variable {s : State}

theorem exec_snsacq_acked (hst : s.snsState = .ready) (h : s.triggered.1 = true) :
    exec .snsacq s = finish (snsPollThenRead s.triggered.2) := by
  simp only [exec, execSnsacq, if_pos hst, h, if_true]

theorem exec_snsacq_nak (hst : s.snsState = .ready) (h : s.triggered.1 = false) :
    exec .snsacq s = .next ((s.unsampled s.triggered.2.bus 0).complete .busError) := by
  have hbus := (writeEach_spec s.params.snsAddr (s.params.triggerWrites s.cfg.sensor) (s.setPolls 0)).1
  simp only [exec, execSnsacq, if_pos hst, h]
  rw [hbus]
  rfl

section
variable {k : Nat} {t : State} {e : PollEnd} (hpoll : pollReady s.cfg.maxRetry.toNat s = (e, t))
include hpoll

theorem snsPollThenRead_ready (he : e = .ready) : snsPollThenRead s = snsReadSample t := by
  simp only [snsPollThenRead, hpoll, he]

theorem snsPollThenRead_timeout (he : e = .timeout) :
    snsPollThenRead s = (t.dropRaw.setSns .halted .notResponding, ErrCode.notResponding) := by
  simp only [snsPollThenRead, hpoll, he, snsFail_eq]

theorem snsPollThenRead_busFailure (he : e = .busFailure) :
    snsPollThenRead s = (t.dropRaw.setSns .halted .notResponding, ErrCode.busError) := by
  simp only [snsPollThenRead, hpoll, he, snsBusFailure_eq]

end

theorem snsReadSample_accepted {bs : List Byte} (h : s.bus.answer s.sampleRead = .ack bs)
    (hlen : bs.length = s.params.rawLen) :
    snsReadSample s = (s.sampled (s.bus.after s.sampleRead) s.lastPolls bs, ErrCode.ok) := by
  simp only [snsReadSample, memRead_eq, h, acceptRead_accepted hlen]
  rfl

theorem snsReadSample_refused (h : ∀ bs, bs.length = s.params.rawLen → s.bus.answer s.sampleRead ≠ .ack bs) :
    snsReadSample s = (s.unsampled (s.bus.after s.sampleRead) s.lastPolls, ErrCode.busError) := by
  rcases acceptRead_unaccepted h with hread | hread <;>
    · simp only [snsReadSample, memRead_eq, hread]
      rfl

end

/-! ### The transactions of SNSACQ (R213-R216) -/

/-- All writes of a list were made and acknowledged. -/
def AllAcked (l : List RegWrite) (made : List Transaction) : Prop := made.length = l.length ∧ ∀ x ∈ made, x.answer ≠ .nak

/-- The transactions of an SNSACQ issued in `s`, oldest first: trigger writes, then polls, then the sample read, each kind only
after the one before it came to its good end. -/
structure AcqMade (s : State) (triggers polls last : List Transaction) : Prop where
  log : (s.bus.afterAll (triggers ++ polls ++ last)).log = (triggers ++ polls ++ last).reverse ++ s.bus.log
  order : WritesInOrder s.params.snsAddr (s.params.triggerWrites s.cfg.sensor) triggers
  requests : ∀ x ∈ polls, x.request = s.statusRead
  earlier : ∀ x ∈ polls.dropLast, StatusIs s.params.readyMask x false
  bound : polls.length ≤ s.cfg.maxRetry.toNat
  pastTriggers : polls ++ last ≠ [] → AllAcked (s.params.triggerWrites s.cfg.sensor) triggers
  pastPolls : last ≠ [] → ∃ x, polls.getLast? = some x ∧ StatusIs s.params.readyMask x true

/-- How an SNSACQ fails, and the code it raises for it (R215). -/
inductive AcqFailure (s : State) : List Transaction → List Transaction → List Transaction → ErrCode → Prop where
  | trigger {triggers : List Transaction} {x : Transaction} (hlast : triggers.getLast? = some x) (hnak : x.answer = .nak) :
    AcqFailure s triggers [] [] .busError
  | timeout {triggers polls : List Transaction} (hacked : AllAcked (s.params.triggerWrites s.cfg.sensor) triggers)
    (hall : polls.length = s.cfg.maxRetry.toNat) (hnone : ∀ x ∈ polls, StatusIs s.params.readyMask x false) :
    AcqFailure s triggers polls [] .notResponding
  | poll {triggers polls : List Transaction} {x : Transaction} (hlast : polls.getLast? = some x)
    (hbad : ∀ b : Byte, x.answer ≠ .ack [b]) : AcqFailure s triggers polls [] .busError
  | sample {triggers polls : List Transaction} {ans : Answer}
    (hbad : ∀ bs : List Byte, bs.length = s.params.rawLen → ans ≠ .ack bs) :
    AcqFailure s triggers polls [⟨s.sampleRead, ans⟩] .busError

/-- How an SNSACQ ends, by its transactions. -/
inductive AcqEnd (s : State) (triggers polls last : List Transaction) : State → Prop where
  | sampled {bs : List Byte} (hlen : bs.length = s.params.rawLen) (hlast : last = [⟨s.sampleRead, .ack bs⟩]) :
    AcqEnd s triggers polls last
      ((s.sampled (s.bus.afterAll (triggers ++ polls ++ last)) (BitVec.ofNat 8 polls.length) bs).complete .ok)
  | failed {e : ErrCode} (h : AcqFailure s triggers polls last e) :
    AcqEnd s triggers polls last
      ((s.unsampled (s.bus.afterAll (triggers ++ polls ++ last)) (BitVec.ofNat 8 polls.length)).complete e)

/-- The state from which SNSACQ polls, after its trigger writes. -/
abbrev State.afterTriggers (s : State) (triggers : List Transaction) : State :=
  (s.setBus (s.bus.afterAll triggers)).setPolls 0

section
variable {s : State} {triggers polls : List Transaction} {e : PollEnd}

/-- The trigger writes are where an SNSACQ starts. -/
theorem triggered_made (s : State) :
    ∃ triggers, s.triggered.2 = s.afterTriggers triggers ∧ AcqMade s triggers [] [] ∧
      (s.triggered.1 = true → AllAcked (s.params.triggerWrites s.cfg.sensor) triggers) ∧
      (s.triggered.1 = false → ∃ x, triggers.getLast? = some x ∧ x.answer = .nak) := by
  obtain ⟨triggers, hstate, hlog, horder, hall, hnak⟩ :=
    writeEach_made s.params.snsAddr (s.params.triggerWrites s.cfg.sensor) (s.setPolls 0)
  rw [hstate] at hlog
  refine ⟨triggers, hstate, ?_, hall, fun h => (hnak h).2⟩
  exact ⟨by simpa using hlog, horder, by simp, by simp, by simp, by simp, by simp⟩

theorem AcqMade.withPolls (h : AcqMade s triggers [] []) (hacked : AllAcked (s.params.triggerWrites s.cfg.sensor) triggers)
    (hpolled : Polled (s.afterTriggers triggers) s.cfg.maxRetry.toNat polls e) : AcqMade s triggers polls [] where
  log := by
    have htriggers := h.log
    have hpolls := hpolled.log
    simp only [List.append_nil, State.setPolls_bus, State.setBus_bus] at htriggers hpolls ⊢
    rw [Bus.afterAll_append, hpolls, htriggers, List.reverse_append, List.append_assoc]
  order := h.order
  requests := hpolled.requests
  earlier := hpolled.earlier
  bound := hpolled.bound
  pastTriggers _ := hacked
  pastPolls := absurd rfl

/-- The sample read made after the trigger writes and the polls. -/
abbrev State.sampleMade (s : State) (triggers polls : List Transaction) : Transaction :=
  ⟨s.sampleRead, (s.bus.afterAll (triggers ++ polls)).answer s.sampleRead⟩

theorem AcqMade.withSample (h : AcqMade s triggers polls [])
    (hready : ∃ x, polls.getLast? = some x ∧ StatusIs s.params.readyMask x true) :
    AcqMade s triggers polls [s.sampleMade triggers polls] where
  log := by
    have hlog := h.log
    rw [List.append_nil] at hlog
    rw [Bus.afterAll_append, Bus.afterAll_cons, Bus.afterAll_nil, Bus.after_log, hlog]
    simp
  order := h.order
  requests := h.requests
  earlier := h.earlier
  bound := h.bound
  pastTriggers _ := h.pastTriggers fun hnil => by
    obtain ⟨x, hx, -⟩ := hready
    rw [List.append_nil] at hnil
    simp [hnil] at hx
  pastPolls _ := hready

end

/-- The state after SNSACQ's polls. -/
abbrev State.afterPolls (s : State) (triggers polls : List Transaction) : State :=
  (s.setBus (s.bus.afterAll (triggers ++ polls))).setPolls (BitVec.ofNat 8 polls.length)

theorem pollReady_afterTriggers (s : State) (triggers : List Transaction) (k : Nat) :
    ∃ polls e, Polled (s.afterTriggers triggers) k polls e ∧
      pollReady k (s.afterTriggers triggers) = (e, s.afterPolls triggers polls) := by
  obtain ⟨polls, hpolled, hstate⟩ := pollReady_polled k (s.afterTriggers triggers)
  refine ⟨polls, _, hpolled, Prod.ext rfl (hstate.trans ?_)⟩
  simp only [State.afterPolls, State.setPolls_lastPolls, Bus.afterAll_append, BitVec.zero_add, BitVec.ofNat_eq_ofNat]
  rfl

/-- The sample read, after polls of which the last showed the data ready. -/
theorem snsReadSample_end {s : State} {triggers polls : List Transaction} (h : AcqMade s triggers polls [])
    (hready : ∃ x, polls.getLast? = some x ∧ StatusIs s.params.readyMask x true) :
    ∃ t last, finish (snsReadSample (s.afterPolls triggers polls)) = .next t ∧ AcqMade s triggers polls last ∧
      AcqEnd s triggers polls last t := by
  have hmade := h.withSample hready
  have hbus : s.bus.afterAll (triggers ++ polls ++ [s.sampleMade triggers polls]) =
      (s.bus.afterAll (triggers ++ polls)).after s.sampleRead := by simp
  by_cases hans : ∃ bs, bs.length = s.params.rawLen ∧ (s.bus.afterAll (triggers ++ polls)).answer s.sampleRead = .ack bs
  · obtain ⟨bs, hlen, hans⟩ := hans
    have hlast : [s.sampleMade triggers polls] = [⟨s.sampleRead, .ack bs⟩] := by rw [State.sampleMade, hans]
    have hend := AcqEnd.sampled (triggers := triggers) (polls := polls) hlen hlast
    rw [hbus] at hend
    exact ⟨_, _, congrArg finish (snsReadSample_accepted hans hlen), hmade, hend⟩
  · have hbad : ∀ bs : List Byte, bs.length = s.params.rawLen →
        (s.bus.afterAll (triggers ++ polls)).answer s.sampleRead ≠ .ack bs := fun bs hlen h => hans ⟨bs, hlen, h⟩
    have hend := AcqEnd.failed (AcqFailure.sample (triggers := triggers) (polls := polls) hbad)
    rw [hbus] at hend
    exact ⟨_, _, congrArg finish (snsReadSample_refused hbad), hmade, hend⟩

/-- SNSACQ after trigger writes that were all acknowledged. -/
theorem snsPollThenRead_end {s : State} {triggers : List Transaction} (h : AcqMade s triggers [] [])
    (hacked : AllAcked (s.params.triggerWrites s.cfg.sensor) triggers) :
    ∃ t polls last, finish (snsPollThenRead (s.afterTriggers triggers)) = .next t ∧ AcqMade s triggers polls last ∧
      AcqEnd s triggers polls last t := by
  obtain ⟨polls, e, hpolled, hpoll⟩ := pollReady_afterTriggers s triggers s.cfg.maxRetry.toNat
  have hmade := h.withPolls hacked hpolled
  have hending := hpolled.ending
  have failed : ∀ {code}, AcqFailure s triggers polls [] code → AcqEnd s triggers polls []
      (((s.afterPolls triggers polls).dropRaw.setSns .halted .notResponding).complete code) := fun hf => by
    have hend := AcqEnd.failed hf
    rwa [List.append_nil] at hend
  cases e with
  | ready =>
    obtain ⟨t, last, hread, hend⟩ := snsReadSample_end hmade hending
    exact ⟨t, polls, last, (congrArg finish (snsPollThenRead_ready hpoll rfl)).trans hread, hend⟩
  | timeout =>
    exact ⟨_, polls, [], congrArg finish (snsPollThenRead_timeout hpoll rfl), hmade,
      failed (.timeout hacked (hpolled.all rfl) hending)⟩
  | busFailure =>
    obtain ⟨x, hlast, hbad⟩ := hending
    exact ⟨_, polls, [], congrArg finish (snsPollThenRead_busFailure hpoll rfl), hmade, failed (.poll hlast hbad)⟩

/-- SNSACQ makes transactions as `AcqMade` says, and ends by them as `AcqEnd` says. -/
theorem exec_snsacq_end {s : State} (hst : s.snsState = .ready) :
    ∃ t triggers polls last, exec .snsacq s = .next t ∧ AcqMade s triggers polls last ∧ AcqEnd s triggers polls last t := by
  obtain ⟨triggers, hstate, hmade, hacked, hnak⟩ := triggered_made s
  cases hok : s.triggered.1 with
  | false =>
    obtain ⟨x, hlast, hx⟩ := hnak hok
    have hexec := exec_snsacq_nak hst hok
    rw [hstate] at hexec
    exact ⟨_, triggers, [], [], hexec, hmade, by simpa using AcqEnd.failed (.trigger hlast hx)⟩
  | true =>
    obtain ⟨t, polls, last, hrun, hend⟩ := snsPollThenRead_end hmade (hacked hok)
    have hexec := exec_snsacq_acked hst hok
    rw [hstate] at hexec
    exact ⟨t, triggers, polls, last, hexec.trans hrun, hend⟩

theorem AcqEnd.bus {s t : State} {triggers polls last : List Transaction} (h : AcqEnd s triggers polls last t) :
    t.bus = s.bus.afterAll (triggers ++ polls ++ last) := by
  cases h <;> rfl

/-- LAST_POLLS counts the polls: eight bits hold as many as CFG_MAXRETRY allows (R32). -/
theorem AcqEnd.lastPolls {s t : State} {triggers polls last : List Transaction} (h : AcqEnd s triggers polls last t)
    (hbound : polls.length ≤ s.cfg.maxRetry.toNat) : t.lastPolls.toNat = polls.length := by
  have hcount : t.lastPolls = BitVec.ofNat 8 polls.length := by cases h <;> rfl
  rw [hcount, BitVec.toNat_ofNat, Nat.mod_eq_of_lt (Nat.lt_of_le_of_lt hbound s.cfg.maxRetry.isLt)]

/-- Settles O42: the transactions by `AcqMade`, the outcome by `AcqEnd`. -/
theorem snsacqCompletesWithinItsBound : Obligations.SnsacqCompletesWithinItsBound := by
  unfold Obligations.SnsacqCompletesWithinItsBound
  intro s hst
  obtain ⟨t, triggers, polls, last, hexec, hmade, hend⟩ := exec_snsacq_end hst
  refine ⟨t, triggers, polls, last, hexec, by rw [hend.bus]; exact hmade.log, hend.bus, hmade.order, hmade.requests,
    hmade.earlier, hend.lastPolls hmade.bound, hmade.bound, hmade.pastTriggers, hmade.pastPolls, ?_⟩
  cases hend with
  | @sampled bs hlen hlast =>
    exact .inl ⟨bs, hlen, hlast, sampled_completes s _ _ hlen, Flags.toWord_acceptRaw s.flags,
      fun i hi => getElem_storeBytes_start s.buf i (hlen ▸ hi), holdsSample_of_raw rfl⟩
  | failed hfail =>
    refine .inr ⟨Flags.toWord_dropRaw s.flags, rfl, rfl, unsampled_completes s _ _ _, ?_⟩
    cases hfail with
    | trigger hlast hnak => exact .inr ⟨rfl, .inl ⟨_, hlast, hnak, rfl, rfl⟩⟩
    | timeout hacked hall hnone => exact .inl ⟨rfl, hacked.1, hacked.2, hall, hnone, rfl⟩
    | poll hlast hbad => exact .inr ⟨rfl, .inr (.inl ⟨_, hlast, hbad, rfl⟩)⟩
    | sample hbad => exact .inr ⟨rfl, .inr (.inr ⟨_, rfl, hbad⟩)⟩

/-! ### SNSACQ on a Simulated sensor (R71-R73, R213) -/

section
variable {s : State} {a : DevAddr}

/-- A block read from a Simulated device is its registers' bytes (R72). -/
theorem State.simPresent.read_block (h : s.simPresent a) {r : RegOffset} {n : Nat} (hfit : r.toNat + n ≤ 256) :
    s.bus.answer (.read a r n) = .ack ((List.range n).map fun i => s.deviceByte a (r + BitVec.ofNat 8 i)) := by
  obtain ⟨hkind, hmem, hfault⟩ := h
  rw [Bus.answer_simulated hkind, Bus.simAnswer_read hmem hfault]
  refine congrArg Answer.ack (List.map_congr_left fun i hi => ?_)
  rw [State.deviceByte, busKey_add a (by have := List.mem_range.1 hi; omega)]

variable (hp : s.simPresent s.params.snsAddr)
include hp

/-- A status that is ready ends the polls at the first. -/
theorem pollReady_simReady {k : Nat} (hk : k ≠ 0)
    (hready : s.deviceByte s.params.snsAddr s.params.statusReg &&& s.params.readyMask = s.params.readyMask) :
    pollReady k s = (.ready, s.polled) := by
  obtain ⟨k, rfl⟩ := Nat.exists_eq_succ_of_ne_zero hk
  have hans := hp.read_byte s.params.statusReg
  simp only [pollReady, memRead_eq, hans, acceptRead_accepted (List.length_singleton)]
  exact if_pos (decide_eq_true hready)

/-- A status that is not ready, which the polls do not change, lets them all be made. -/
theorem pollReady_simTimeout (k : Nat)
    (hwait : s.deviceByte s.params.snsAddr s.params.statusReg &&& s.params.readyMask ≠ s.params.readyMask) :
    ∃ b, b.map = s.bus.map ∧ pollReady k s = (.timeout, (s.setBus b).setPolls (s.lastPolls + BitVec.ofNat 8 k)) := by
  induction k generalizing s with
  | zero => exact ⟨s.bus, rfl, by simp [pollReady, State.setBus, State.setPolls]⟩
  | succ k ih =>
    have hmap : s.polled.bus.map = s.bus.map := Bus.after_map_of_read ..
    have hans := hp.read_byte s.params.statusReg
    obtain ⟨b, hb, hrest⟩ := ih (s := s.polled) (hp.after s.statusRead) (by rwa [State.deviceByte, hmap])
    refine ⟨b, hb.trans hmap, ?_⟩
    have hstep : pollReady (k + 1) s = pollReady k s.polled := by
      simp only [pollReady, memRead_eq, hans, acceptRead_accepted (List.length_singleton)]
      exact if_neg (mt of_decide_eq_true hwait)
    rw [hstep, hrest]
    simp only [State.countPoll, State.setPolls, State.setBus, add_one_add_ofNat]

end

/-- The bytes of the sample registers. -/
abbrev State.sampleBytes (s : State) : List Byte :=
  (List.range s.params.rawLen).map fun i => s.deviceByte s.params.snsAddr (s.params.rawBase + BitVec.ofNat 8 i)

/-- The trigger writes name neither the status register nor a register of the sample. -/
def State.triggersApart (s : State) : Prop :=
  ∀ w ∈ s.params.triggerWrites s.cfg.sensor, w.1 ≠ s.params.statusReg ∧
    (w.1.toNat < s.params.rawBase.toNat ∨ s.params.rawBase.toNat + s.params.rawLen ≤ w.1.toNat)

/-- The state from which SNSACQ polls, whose trigger writes left the bus `b`. -/
abbrev State.polling (s : State) (b : Bus) : State := (s.setBus b).setPolls 0

/-- MAP as SNSACQ's trigger writes leave it (R71). -/
abbrev State.triggeredMap (s : State) : Memory :=
  s.bus.map.writeAll s.params.snsAddr (s.params.triggerWrites s.cfg.sensor)

section
variable {s : State}

/-- A register of the sample is apart from every trigger write. -/
theorem State.triggersApart.sample (h : s.triggersApart) {i : Nat} (hi : i < s.params.rawLen) :
    ∀ w ∈ s.params.triggerWrites s.cfg.sensor, w.1 ≠ s.params.rawBase + BitVec.ofNat 8 i := by
  intro w hw heq
  have hfit := (paramsOf_legal s.paramSel).rawBlock
  obtain ⟨-, hout⟩ := h w hw
  simp only [State.params] at hi hout heq
  rw [heq, BitVec.toNat_add, BitVec.toNat_ofNat] at hout
  omega

/-- Trigger writes apart from them leave the status and the sample as they were. -/
theorem polling_reads {b : Bus} (hwf : s.bus.map.wf) (hapart : s.triggersApart) (hmap : b.map = s.triggeredMap) :
    (s.polling b).deviceByte s.params.snsAddr s.params.statusReg = s.deviceByte s.params.snsAddr s.params.statusReg ∧
      (s.polling b).sampleBytes = s.sampleBytes := by
  obtain ⟨-, hkeeps⟩ := deviceByte_of_writeAll (t := s.polling b) hwf hmap
  refine ⟨hkeeps _ _ fun _ w hw => (hapart w hw).1, List.map_congr_left fun i hi => ?_⟩
  exact hkeeps _ _ fun _ => hapart.sample (List.mem_range.1 hi)

/-- On a Simulated sensor every trigger write is acknowledged, and SNSACQ goes on to its polls. -/
theorem exec_snsacq_simPresent (hst : s.snsState = .ready) (hp : s.simPresent s.params.snsAddr) :
    ∃ b, b.map = s.triggeredMap ∧ (s.polling b).simPresent s.params.snsAddr ∧
      exec .snsacq s = finish (snsPollThenRead (s.polling b)) := by
  have hp' : (s.setPolls 0).simPresent s.params.snsAddr := hp
  obtain ⟨hok, hafter, hmap⟩ := writeEach_simPresent hp' (s.params.triggerWrites s.cfg.sensor)
  have hstate : s.triggered.2 = s.polling s.triggered.2.bus :=
    (writeEach_spec s.params.snsAddr (s.params.triggerWrites s.cfg.sensor) (s.setPolls 0)).1
  refine ⟨_, hmap, hstate ▸ hafter, ?_⟩
  rw [← hstate]
  exact exec_snsacq_acked hst hok

/-- The polls and the sample of a Simulated sensor whose status is ready. -/
theorem snsPollThenRead_simReady (hp : s.simPresent s.params.snsAddr) (hretry : s.retryLegal)
    (hready : s.deviceByte s.params.snsAddr s.params.statusReg &&& s.params.readyMask = s.params.readyMask) :
    ∃ b, b.map = s.bus.map ∧ snsPollThenRead s = (s.sampled b (s.lastPolls + 1) s.sampleBytes, ErrCode.ok) := by
  have hk : s.cfg.maxRetry.toNat ≠ 0 := fun h => hretry (BitVec.eq_of_toNat_eq h)
  have hmap : s.polled.bus.map = s.bus.map := Bus.after_map_of_read ..
  have hans := (hp.after s.statusRead).read_block (paramsOf_legal s.paramSel).rawBlock
  have hbytes : s.polled.sampleBytes = s.sampleBytes := by
    simp only [State.sampleBytes, State.deviceByte, hmap]
    rfl
  refine ⟨s.polled.bus.after s.sampleRead, (Bus.after_map_of_read ..).trans hmap, ?_⟩
  rw [snsPollThenRead_ready (pollReady_simReady hp hk hready) rfl, ← hbytes]
  exact snsReadSample_accepted hans (by simp)

/-- The polls of a Simulated sensor whose status is not ready. -/
theorem snsPollThenRead_simTimeout (hp : s.simPresent s.params.snsAddr)
    (hwait : s.deviceByte s.params.snsAddr s.params.statusReg &&& s.params.readyMask ≠ s.params.readyMask) :
    ∃ b, b.map = s.bus.map ∧
      snsPollThenRead s = (s.unsampled b (s.lastPolls + s.cfg.maxRetry), ErrCode.notResponding) := by
  obtain ⟨b, hmap, hpoll⟩ := pollReady_simTimeout hp s.cfg.maxRetry.toNat hwait
  rw [BitVec.ofNat_toNat, BitVec.setWidth_eq] at hpoll
  exact ⟨b, hmap, snsPollThenRead_timeout hpoll rfl⟩

end

/-- Settles O43: the trigger writes leave status and sample apart, so the status as it stood decides the first poll. -/
theorem snsacqSamplesASimulatedSensor : Obligations.SnsacqSamplesASimulatedSensor := by
  unfold Obligations.SnsacqSamplesASimulatedSensor
  intro s hst hp hwf hretry hapart
  obtain ⟨b, hmap, hp', hexec⟩ := exec_snsacq_simPresent hst hp
  obtain ⟨hstatus, hbytes⟩ := polling_reads hwf hapart hmap
  refine ⟨fun hready => ?_, fun hwait => ?_⟩
  · obtain ⟨b', hmap', hrun⟩ := snsPollThenRead_simReady hp' hretry (hstatus.symm ▸ hready)
    rw [hrun, hbytes] at hexec
    exact ⟨_, hexec, sampled_completes s b' 1 (by simp), rfl, Flags.toWord_acceptRaw s.flags,
      fun i hi => getElem_storeBytes_start s.buf i (by simpa using hi), holdsSample_of_raw rfl,
      deviceByte_of_writeAll hwf (hmap'.trans hmap)⟩
  · obtain ⟨b', hmap', hrun⟩ := snsPollThenRead_simTimeout hp' (hstatus.symm ▸ hwait)
    rw [hrun] at hexec
    have hcount : (0 : BitVec 8) + s.cfg.maxRetry = s.cfg.maxRetry := BitVec.zero_add _
    exact ⟨_, hexec, unsampled_completes s b' _ _, congrArg (BitVec.zeroExtend 32) hcount, Flags.toWord_dropRaw s.flags, rfl,
      rfl, deviceByte_of_writeAll hwf (hmap'.trans hmap)⟩

/-! ### The commands outside the sensor sequencer leave SNS_STATE and SNS_DEV alone (R190) -/

/-- The two registers of the sensor state machine. -/
def State.snsMarks (s : State) : SnsState × DeviceStatus := (s.snsState, s.snsDev)

/-- The command run from `s` completes, and its pseudocode left the sensor state machine as it was. -/
def KeepsSns (s : State) (o : Host.Outcome State Fault Refusal) : Prop :=
  ∃ r : Ended, o = finish r ∧ r.1.snsMarks = s.snsMarks

theorem keepsSns_finish {s : State} {r : Ended} (h : r.1.snsMarks = s.snsMarks) : KeepsSns s (finish r) := ⟨r, rfl, h⟩

theorem keepsSns_next {s t : State} {e : ErrCode} (h : t.snsMarks = s.snsMarks) : KeepsSns s (.next (t.complete e)) :=
  ⟨raise t e, rfl, h⟩

theorem stageT_snsMarks (s : State) : (stageT s).1.snsMarks = s.snsMarks := by
  unfold stageT
  split
  · split <;> rfl
  · rfl

theorem stageP_snsMarks (s : State) : (stageP s).1.snsMarks = s.snsMarks := by
  unfold stageP
  split
  · split <;> rfl
  · rfl

theorem stageH_snsMarks (s : State) : (stageH s).1.snsMarks = s.snsMarks := by
  unfold stageH
  split
  · split <;> rfl
  · rfl

theorem stageG_snsMarks (s : State) : (stageG s).1.snsMarks = s.snsMarks := by
  unfold stageG
  split
  · split <;> rfl
  · rfl

theorem stageAq_snsMarks (s : State) : (stageAq s).1.snsMarks = s.snsMarks := by
  unfold stageAq
  split <;> rfl

theorem Ended.andThen_snsMarks {s : State} {r : Ended} {f : State → Ended} (hr : r.1.snsMarks = s.snsMarks)
    (hf : ∀ u, (f u).1.snsMarks = u.snsMarks) : (r.andThen f).1.snsMarks = s.snsMarks := by
  by_cases h : r.2 = .ok
  · rw [Ended.andThen_ok h, hf, hr]
  · rw [Ended.andThen_raised h, hr]

theorem execCmpall_keepsSns (s : State) : KeepsSns s (execCmpall s) :=
  keepsSns_finish <|
    Ended.andThen_snsMarks
      (Ended.andThen_snsMarks
        (Ended.andThen_snsMarks (Ended.andThen_snsMarks (stageT_snsMarks s) stageP_snsMarks) stageH_snsMarks)
        stageG_snsMarks)
      stageAq_snsMarks

theorem execPut_keepsSns (idx : BitVec 8) (rs : GReg) (s : State) : KeepsSns s (execPut idx rs s) := by
  unfold execPut
  split
  · exact keepsSns_finish rfl
  · next r _ =>
    obtain ⟨-, -, hstate, hdev, -⟩ := writeReg_frame s r (s.readG rs)
    split
    · exact keepsSns_finish rfl
    · exact keepsSns_finish (Prod.ext hstate hdev)

theorem execRtcset_keepsSns (s : State) : KeepsSns s (exec .rtcset s) := by
  obtain ⟨t, hexec, hout⟩ := exec_rtcset_outcome s
  rw [hexec]
  cases hout with
  | refused | outOfRange => exact keepsSns_next rfl
  | busFailure | differs | confirmed => exact keepsSns_next (by simp [State.snsMarks, State.afterRtcset, rtcStage])

theorem exec_keepsSns {i : Instr} (s : State) (hid : i ≠ .snsid) (hreq : snsRequired i = none) : KeepsSns s (exec i s) := by
  cases i with
  | snsid | snsrst | snscfg | snscal | snsacq => contradiction
  | nop | ldi | lui | tvalid | tunpack => exact keepsSns_finish rfl
  | put idx rs => exact execPut_keepsSns idx rs s
  | rtcset => exact execRtcset_keepsSns s
  | cmpall => exact execCmpall_keepsSns s
  | cmpt => exact keepsSns_finish (stageT_snsMarks s)
  | cmpp => exact keepsSns_finish (stageP_snsMarks s)
  | cmph => exact keepsSns_finish (stageH_snsMarks s)
  | cmpg => exact keepsSns_finish (stageG_snsMarks s)
  | cmpaq => exact keepsSns_finish (stageAq_snsMarks s)
  | get rd idx =>
    simp only [exec, execGet]
    split <;> exact keepsSns_finish rfl
  | bcdenc rd rs =>
    simp only [exec, execBcdenc]
    split <;> exact keepsSns_finish rfl
  | bcddec rd rs =>
    simp only [exec, execBcddec]
    split <;> exact keepsSns_finish rfl
  | wday rd =>
    simp only [exec, execWday]
    split <;> exact keepsSns_finish rfl
  | tpack =>
    simp only [exec, execTpack]
    split
    · exact keepsSns_finish (by simp [State.snsMarks])
    · exact keepsSns_finish rfl
  | rtcrd =>
    simp only [exec, execRtcrd]
    split <;> exact keepsSns_finish rfl
  | i2cwr addr reg len =>
    simp only [exec, execI2cwr]
    split
    · split <;> exact keepsSns_finish rfl
    · exact keepsSns_finish rfl
  | i2crd addr reg len =>
    simp only [exec, execI2crd]
    split
    · split <;> exact keepsSns_finish rfl
    · exact keepsSns_finish rfl

/-! ### The transition table (R190) -/

section
variable {s : State}

/-- SNSID's rows. -/
theorem snsid_moves (s : State) :
    ∃ t, exec .snsid s = .next t ∧ snsOutcome s.snsDev .snsid t.err t.snsState t.snsDev := by
  by_cases hack : ∃ b, s.bus.answer s.idRead = .ack [b]
  · obtain ⟨b, hb⟩ := hack
    by_cases hid : b = s.params.chipIdValue
    · exact ⟨_, exec_snsid_identity (hid ▸ hb), .inl ⟨rfl, rfl, rfl⟩⟩
    · exact ⟨_, exec_snsid_mismatch hb hid, .inr (.inl ⟨rfl, rfl, rfl⟩)⟩
  · exact ⟨_, exec_snsid_refused fun b hb => hack ⟨b, hb⟩, .inr (.inr ⟨rfl, rfl, rfl⟩)⟩

/-- SNSRST's row for IdentityChecked. -/
theorem snsrst_moves (hst : s.snsState = .identityChecked) :
    ∃ t, exec .snsrst s = .next t ∧ snsOutcome s.snsDev .snsrst t.err t.snsState t.snsDev := by
  by_cases hnak : s.bus.answer s.resetWrite = .nak
  · exact ⟨_, exec_snsrst_nak hst hnak, .inr ⟨rfl, rfl, rfl⟩⟩
  · exact ⟨_, exec_snsrst_acked hst hnak, .inl ⟨rfl, rfl, rfl⟩⟩

/-- SNSCFG's row for Reset. -/
theorem snscfg_moves (hst : s.snsState = .reset) :
    ∃ t, exec .snscfg s = .next t ∧ snsOutcome s.snsDev .snscfg t.err t.snsState t.snsDev := by
  have hdev : s.configured.2.snsDev = s.snsDev := by
    rw [State.configured, (writeEach_spec s.params.snsAddr (s.params.cfgWrites s.cfg.sensor) s).1]
    rfl
  cases hok : s.configured.1 with
  | true => exact ⟨_, exec_snscfg_acked hst hok, .inl ⟨rfl, rfl, hdev⟩⟩
  | false => exact ⟨_, exec_snscfg_nak hst hok, .inr ⟨rfl, rfl, rfl⟩⟩

/-- SNSCAL's row for Configured. -/
theorem snscal_moves (hst : s.snsState = .configured) :
    ∃ t, exec .snscal s = .next t ∧ snsOutcome s.snsDev .snscal t.err t.snsState t.snsDev := by
  cases hans : s.bus.answer s.calRead with
  | nak => exact ⟨_, exec_snscal_nak hst hans, .inr (.inl ⟨rfl, rfl, rfl⟩)⟩
  | ack bs =>
    by_cases hlen : bs.length = s.params.calLen
    · exact ⟨_, exec_snscal_accepted hst hans hlen, .inl ⟨rfl, rfl, rfl⟩⟩
    · exact ⟨_, exec_snscal_short hst hans hlen, .inr (.inr ⟨rfl, rfl, rfl⟩)⟩

/-- SNSACQ's row for Ready: a sample leaves both registers as they are. -/
theorem snsacq_moves (hst : s.snsState = .ready) (hdev : s.snsDev = .ready) :
    ∃ t, exec .snsacq s = .next t ∧ snsOutcome s.snsDev .snsacq t.err t.snsState t.snsDev := by
  obtain ⟨t, triggers, polls, last, hexec, -, hend⟩ := exec_snsacq_end hst
  refine ⟨t, hexec, ?_⟩
  cases hend with
  | sampled => exact .inl ⟨rfl, by simpa using hst, by simpa using hdev⟩
  | failed hfail =>
    cases hfail with
    | timeout => exact .inr (.inr ⟨rfl, rfl, rfl⟩)
    | trigger | poll | sample => exact .inr (.inl ⟨rfl, rfl, rfl⟩)

/-- The rows of the state that a sensor command requires. -/
theorem exec_snsOutcome {i : Instr} {need : SnsState} (hreq : snsRequired i = some need) (hst : s.snsState = need)
    (hready : s.snsState = .ready → s.snsDev = .ready) :
    ∃ t, exec i s = .next t ∧ snsOutcome s.snsDev i t.err t.snsState t.snsDev := by
  cases i with
  | snsrst =>
    obtain rfl := Option.some.inj hreq
    exact snsrst_moves hst
  | snscfg =>
    obtain rfl := Option.some.inj hreq
    exact snscfg_moves hst
  | snscal =>
    obtain rfl := Option.some.inj hreq
    exact snscal_moves hst
  | snsacq =>
    obtain rfl := Option.some.inj hreq
    exact snsacq_moves hst (hready hst)
  | _ => contradiction

/-- Every command makes a move of the table; of the coherence of the two registers this needs Ready's alone. -/
theorem exec_snsMove (i : Instr) (hready : s.snsState = .ready → s.snsDev = .ready) :
    ∃ t, exec i s = .next t ∧ SnsMove s.snsState s.snsDev i t.err t.snsState t.snsDev := by
  unfold SnsMove
  cases hreq : snsRequired i with
  | some need =>
    by_cases hst : s.snsState = need
    · simp only [if_pos hst]
      exact exec_snsOutcome hreq hst hready
    · simp only [if_neg hst]
      exact ⟨_, exec_outOfOrder hreq hst, rfl, rfl, rfl⟩
  | none =>
    by_cases hid : i = .snsid
    · subst hid
      exact snsid_moves s
    · simp only [if_neg hid]
      obtain ⟨r, hexec, hkeeps⟩ := exec_keepsSns s hid hreq
      exact ⟨_, hexec, Prod.mk.inj hkeeps⟩

end

/-- Settles O46. -/
theorem sensorMachineFollowsItsTable : Obligations.SensorMachineFollowsItsTable := by
  unfold Obligations.SensorMachineFollowsItsTable
  intro i s hs
  exact exec_snsMove i fun hst => by simpa [State.snsCoherent, hst] using hs

/-! ### Halted is left by SNSID and the reset input alone (R190, R191) -/

/-- The table's only row from Halted that leads elsewhere is SNSID's. -/
theorem SnsMove.from_halted {dev dev' : DeviceStatus} {i : Instr} {e : ErrCode} {st : SnsState}
    (h : SnsMove .halted dev i e st dev') : i = .snsid ∨ st = .halted := by
  unfold SnsMove at h
  cases hreq : snsRequired i with
  | some need =>
    simp only [hreq, if_neg (snsRequired_ne_halted hreq).symm] at h
    obtain ⟨-, hst, -⟩ := h
    exact .inr hst
  | none =>
    by_cases hid : i = .snsid
    · exact .inl hid
    · simp only [hreq, if_neg hid] at h
      obtain ⟨hst, -⟩ := h
      exact .inr hst

/-- A host write moves no state machine (R44). -/
theorem hostWrite_snsState (s : State) (idx : BitVec 8) (v : Word) : (s.hostWrite idx v).snsState = s.snsState := by
  unfold State.hostWrite
  split
  · rfl
  · next r _ =>
    obtain ⟨-, -, hstate, -⟩ := writeReg_frame s r v
    split
    · rfl
    · exact hstate

/-- A command word that leaves Halted is SNSID's. -/
theorem runWord_from_halted {w : Word} {s t : State} (hs : s.snsState = .halted) (hrun : runWord w s = .next t)
    (ht : t.snsState ≠ .halted) : w = encode .snsid := by
  cases hdec : decode w with
  | error err =>
    have hillegal : runWord w s = illegalCommand s := by simp only [runWord, hdec]
    obtain rfl := Host.Outcome.next.inj (hillegal.symm.trans hrun)
    exact absurd hs ht
  | ok i =>
    obtain ⟨u, hexec, hmove⟩ := exec_snsMove (s := s) i fun hready => by simp [hs] at hready
    rw [runWord_of_decode hdec] at hrun
    obtain rfl := Host.Outcome.next.inj (hexec.symm.trans hrun)
    rw [hs] at hmove
    obtain rfl : i = .snsid := hmove.from_halted.resolve_right ht
    exact (decode_eq_ok_iff_encode.1 hdec).2.symm

/-- Settles O47: by the access that the step takes. -/
theorem onlySnsidOrResetLeavesHalted : Obligations.OnlySnsidOrResetLeavesHalted := by
  unfold Obligations.OnlySnsidOrResetLeavesHalted
  intro s t hs hstep ht
  cases hport : s.port with
  | nil =>
    rw [step_idle hport] at hstep
    obtain rfl := Host.Outcome.next.inj hstep
    exact absurd hs ht
  | cons op rest =>
    cases op with
    | reset => exact ⟨rest, .inl rfl⟩
    | issue w =>
      rw [step_issue hport] at hstep
      obtain rfl := runWord_from_halted (s := s.setPort rest) hs hstep ht
      exact ⟨rest, .inr rfl⟩
    | read idx =>
      rw [step_read hport] at hstep
      obtain rfl := Host.Outcome.next.inj hstep
      exact absurd hs ht
    | write idx v =>
      rw [step_write hport] at hstep
      obtain rfl := Host.Outcome.next.inj hstep
      exact absurd ((hostWrite_snsState (s.setPort rest) idx v).trans hs) ht
    | harness op =>
      rw [step_harness hport] at hstep
      obtain rfl := Host.Outcome.next.inj hstep
      exact absurd hs ht

end Sys2Proof.Machine

/-! PROOF. The compensation pipeline (R230-R262): the five stages in one scheme, what each stage command writes by its
gate and its formula, the buckets of the air-quality index, CMPALL as the five commands in order, and the determinism of R239. -/

namespace Sys2Proof.Machine

/-! ### What pseudocode that makes no transaction writes -/

/-- Pseudocode that led from `s` to `t` wrote no register but those of `W`, and nothing outside the block. -/
def WritesOffBus (W : Reg → Prop) (s t : State) : Prop := WritesOnly W s t ∧ t.bus = s.bus

theorem WritesOffBus.refl (W : Reg → Prop) (s : State) : WritesOffBus W s s := ⟨.refl W s, rfl⟩

section
variable {W : Reg → Prop} {s t : State} (h : WritesOffBus W s t)
include h

theorem WritesOffBus.trans {u : State} (h' : WritesOffBus W t u) : WritesOffBus W s u := by
  obtain ⟨hwrites, hbus⟩ := h
  obtain ⟨hwrites', hbus'⟩ := h'
  exact ⟨hwrites.trans hwrites', hbus'.trans hbus⟩

theorem WritesOffBus.mono {W' : Reg → Prop} (hW : ∀ r, W r → W' r) : WritesOffBus W' s t := by
  obtain ⟨⟨hmask, hsame, hout⟩, hbus⟩ := h
  exact ⟨⟨hmask, hsame.mono hW, hout⟩, hbus⟩

theorem WritesOffBus.readReg_eq {r : Reg} (hr : ¬ W r) : readReg t r = readReg s r := by
  obtain ⟨⟨-, hsame, -⟩, -⟩ := h
  exact hsame r hr

theorem WritesOffBus.completes (e : ErrCode) : CompletesOffBus e W s (t.complete e) := by
  obtain ⟨hwrites, hbus⟩ := h
  exact ⟨hwrites.completes e, hbus⟩

end

/-! ### The scheme of a stage (R240, R243, R246, R249, R252) -/

/-- A stage of the pipeline: the gate that the flags must pass, the formula of the current inputs, what is written where the
formula has a value, and the registers it is written to. -/
structure Stage (α : Type) where
  ready : State → Bool
  value : State → Option α
  store : State → α → State
  writes : Reg → Prop

/-- The pseudocode that the stages share: Sequence at a closed gate, CompError where the formula is undefined (R231). -/
def Stage.run {α : Type} (p : Stage α) (s : State) : Ended :=
  if p.ready s then
    match p.value s with
    | none => raise s .compError
    | some v => done (p.store s v)
  else raise s .sequence

/-- What CMPAQ writes for a bucket (R252). -/
def State.storeBucket (s : State) (n : Nat) : State :=
  (s.setOut { s.out with aq := BitVec.ofNat 3 n }).setFlags { s.flags with aqDone := true }

/-- The stage of CMPT (R240). -/
def tStage : Stage (Int × Int) where
  ready := State.inputsValid
  value := State.compT
  store s v := s.storeT v.1 v.2
  writes r := r = .tFine ∨ r = .outT ∨ r = .flags

/-- The stage of CMPP (R243). -/
def pStage : Stage Int where
  ready := State.fineValid
  value := State.compP
  store := State.storeP
  writes r := r = .outP ∨ r = .flags

/-- The stage of CMPH (R246). -/
def hStage : Stage Int where
  ready := State.fineValid
  value := State.compH
  store := State.storeH
  writes r := r = .outH ∨ r = .flags

/-- The stage of CMPG (R249). -/
def gStage : Stage Int where
  ready := State.inputsValid
  value := State.compG
  store := State.storeG
  writes r := r = .outG ∨ r = .flags

/-- The stage of CMPAQ (R252). AQ_INDEX is total, so the formula, the bucket of the index, always has a value. -/
def aqStage : Stage Nat where
  ready := State.outputsDone
  value s := some (aqBucket s.cfg s.aqIndex)
  store := State.storeBucket
  writes r := r = .outAq ∨ r = .flags

theorem stageT_eq_run : stageT = tStage.run := by
  funext s
  cases hv : s.compT <;> simp [stageT, Stage.run, tStage, hv, State.storeT]

theorem stageP_eq_run : stageP = pStage.run := by
  funext s
  cases hv : s.compP <;> simp [stageP, Stage.run, pStage, hv, State.storeP]

theorem stageH_eq_run : stageH = hStage.run := by
  funext s
  cases hv : s.compH <;> simp [stageH, Stage.run, hStage, hv, State.storeH]

theorem stageG_eq_run : stageG = gStage.run := by
  funext s
  cases hv : s.compG <;> simp [stageG, Stage.run, gStage, hv, State.storeG]

theorem stageAq_eq_run : stageAq = aqStage.run := rfl

theorem exec_cmpt (s : State) : exec .cmpt s = finish (tStage.run s) := congrArg finish (congrFun stageT_eq_run s)

theorem exec_cmpp (s : State) : exec .cmpp s = finish (pStage.run s) := congrArg finish (congrFun stageP_eq_run s)

theorem exec_cmph (s : State) : exec .cmph s = finish (hStage.run s) := congrArg finish (congrFun stageH_eq_run s)

theorem exec_cmpg (s : State) : exec .cmpg s = finish (gStage.run s) := congrArg finish (congrFun stageG_eq_run s)

theorem exec_cmpaq (s : State) : exec .cmpaq s = finish (aqStage.run s) := congrArg finish (congrFun stageAq_eq_run s)

theorem exec_cmpall (s : State) :
    exec .cmpall s =
      finish (((((tStage.run s).andThen pStage.run).andThen hStage.run).andThen gStage.run).andThen aqStage.run) := by
  rw [← stageT_eq_run, ← stageP_eq_run, ← stageH_eq_run, ← stageG_eq_run, ← stageAq_eq_run]
  rfl

section
variable {α : Type} {p : Stage α} {s : State}

theorem Stage.run_defined {v : α} (hr : p.ready s = true) (hv : p.value s = some v) : p.run s = done (p.store s v) := by
  simp [Stage.run, hr, hv]

theorem Stage.run_undefined (hr : p.ready s = true) (hv : p.value s = none) : p.run s = raise s .compError := by
  simp [Stage.run, hr, hv]

theorem Stage.run_refused (hr : ¬ p.ready s = true) : p.run s = raise s .sequence := if_neg hr

end

/-! ### The gates, and FLAGS after a stage (R29) -/

section
variable {s : State}

theorem State.inputsValid_iff : s.inputsValid = true ↔ s.flags.calValid = true ∧ s.flags.rawValid = true :=
  Bool.and_eq_true_iff

theorem State.fineValid_iff :
    s.fineValid = true ↔ s.flags.calValid = true ∧ s.flags.rawValid = true ∧ s.flags.tDone = true := by
  rw [State.fineValid, Bool.and_eq_true_iff, State.inputsValid_iff, and_assoc]

theorem State.outputsDone_iff :
    s.outputsDone = true ↔
      s.flags.tDone = true ∧ s.flags.pDone = true ∧ s.flags.hDone = true ∧ s.flags.gDone = true := by
  simp only [State.outputsDone, Bool.and_eq_true_iff, and_assoc]

end

theorem Flags.toWord_setT : ∀ f : Flags, Flags.toWord { f with tDone := true } = f.toWord ||| 0x04 :=
  of_bits (by decide)

theorem Flags.toWord_setP : ∀ f : Flags, Flags.toWord { f with pDone := true } = f.toWord ||| 0x08 :=
  of_bits (by decide)

theorem Flags.toWord_setH : ∀ f : Flags, Flags.toWord { f with hDone := true } = f.toWord ||| 0x10 :=
  of_bits (by decide)

theorem Flags.toWord_setG : ∀ f : Flags, Flags.toWord { f with gDone := true } = f.toWord ||| 0x20 :=
  of_bits (by decide)

theorem Flags.toWord_setAq : ∀ f : Flags, Flags.toWord { f with aqDone := true } = f.toWord ||| 0x40 :=
  of_bits (by decide)

/-! ### Equal inputs (R239) -/

/-- Two states of one configuration agree on what the stages read, but for the outputs that CMPAQ reads (R239). -/
structure SameInputs (s s' : State) : Prop where
  paramSel : s.paramSel = s'.paramSel
  calBytes : s.calbuf.toList.take s.params.calLen = s'.calbuf.toList.take s.params.calLen
  raw : s.raw = s'.raw
  tFine : s.tFine = s'.tFine
  flags : s.flags = s'.flags
  aqb : s.cfg.aqb = s'.cfg.aqb
  aqn : s.cfg.aqn = s'.cfg.aqn

section
variable {s s' : State} (h : SameInputs s s')
include h

theorem SameInputs.params : s.params = s'.params := congrArg paramsOf h.paramSel

theorem SameInputs.coef : s.coef = s'.coef := by
  rw [State.coef, h.calBytes, h.params, State.coef]

theorem SameInputs.inputsValid : s.inputsValid = s'.inputsValid := by
  rw [State.inputsValid, h.flags, State.inputsValid]

theorem SameInputs.fineValid : s.fineValid = s'.fineValid := by
  rw [State.fineValid, h.inputsValid, h.flags, State.fineValid]

theorem SameInputs.outputsDone : s.outputsDone = s'.outputsDone := by
  rw [State.outputsDone, h.flags, State.outputsDone]

theorem SameInputs.compT : s.compT = s'.compT := by
  rw [State.compT, h.params, h.coef, h.raw, State.compT]

theorem SameInputs.compP : s.compP = s'.compP := by
  rw [State.compP, h.params, h.coef, h.tFine, h.raw, State.compP]

theorem SameInputs.compH : s.compH = s'.compH := by
  rw [State.compH, h.params, h.coef, h.tFine, h.raw, State.compH]

theorem SameInputs.compG : s.compG = s'.compG := by
  rw [State.compG, h.params, h.coef, h.raw, State.compG]

/-- Done flags that are current make the outputs that CMPAQ reads functions of the other inputs. -/
theorem SameInputs.aqIndex (hs : s.Current) (hs' : s'.Current) (hd : s.outputsDone = true) : s.aqIndex = s'.aqIndex := by
  obtain ⟨ht, hp, hh, hg⟩ := State.outputsDone_iff.1 hd
  obtain ⟨ht', hp', hh', hg'⟩ := State.outputsDone_iff.1 (h.outputsDone ▸ hd)
  have houtT : s.out.t = s'.out.t := by
    obtain ⟨_, _, hv, -, hout⟩ := hs.temperature ht
    obtain ⟨_, _, hv', -, hout'⟩ := hs'.temperature ht'
    grind [h.compT]
  have houtP : s.out.p = s'.out.p := by
    obtain ⟨_, hv, hout⟩ := hs.pressure hp
    obtain ⟨_, hv', hout'⟩ := hs'.pressure hp'
    grind [h.compP]
  have houtH : s.out.h = s'.out.h := by
    obtain ⟨_, hv, hout⟩ := hs.humidity hh
    obtain ⟨_, hv', hout'⟩ := hs'.humidity hh'
    grind [h.compH]
  have houtG : s.out.g = s'.out.g := by
    obtain ⟨_, hv, hout⟩ := hs.gas hg
    obtain ⟨_, hv', hout'⟩ := hs'.gas hg'
    grind [h.compG]
  rw [State.aqIndex, h.params, houtT, houtP, houtH, houtG, State.aqIndex]

theorem SameInputs.aqBucket (x : Word) : aqBucket s.cfg x = aqBucket s'.cfg x := by
  rw [Machine.aqBucket, h.aqb, h.aqn, Machine.aqBucket]

end

/-! ### What the five stages have in common -/

/-- The registers that the pipeline's results go to. -/
def resultReg (r : Reg) : Prop := r = .tFine ∨ r = .outT ∨ r = .outP ∨ r = .outH ∨ r = .outG ∨ r = .outAq

/-- The registers that the pipeline writes. -/
def pipelineReg (r : Reg) : Prop := resultReg r ∨ r = .flags

/-- What every stage of the pipeline does. -/
structure Stage.Lawful {α : Type} (p : Stage α) : Prop where
  /-- It writes no register but those it names. -/
  store_writes : ∀ s v, WritesOffBus p.writes s (p.store s v)
  writes_pipeline : ∀ r, p.writes r → pipelineReg r
  /-- Where it stores, it makes one of the block's updates. -/
  store_update : ∀ {s v}, p.ready s = true → p.value s = some v → Update s (p.store s v)
  /-- ERR and ERRMASK are no input of it. -/
  ready_complete : ∀ s e, p.ready (s.complete e) = p.ready s := by intros; rfl
  value_complete : ∀ s e, p.value (s.complete e) = p.value s := by intros; rfl
  store_complete : ∀ s e v, p.store (s.complete e) v = (p.store s v).complete e := by intros; rfl
  /-- Gate and formula are functions of the inputs of R239. -/
  ready_eq : ∀ {s s'}, SameInputs s s' → p.ready s = p.ready s'
  value_eq : ∀ {s s'}, SameInputs s s' → s.Current → s'.Current → p.ready s = true → p.value s = p.value s'
  /-- Storing one value into two states keeps equal inputs equal and leaves what is written equal. -/
  store_inputs : ∀ {s s'} v, SameInputs s s' → SameInputs (p.store s v) (p.store s' v)
  store_eq : ∀ s s' v r, p.writes r → r = .flags ∨ readReg (p.store s v) r = readReg (p.store s' v) r

theorem tStage_lawful : tStage.Lawful where
  store_writes s v := by
    refine ⟨⟨rfl, fun r hr => ?_, rfl, rfl, rfl⟩, rfl⟩
    cases r with
    | tFine | outT | flags => exact absurd (by simp [tStage]) hr
    | _ => rfl
  writes_pipeline r hr := by rcases hr with rfl | rfl | rfl <;> simp [pipelineReg, resultReg]
  store_update _ hv := .storeT _ _ _ hv
  ready_eq h := h.inputsValid
  value_eq h _ _ _ := h.compT
  store_inputs v h := { h with tFine := rfl, flags := congrArg (fun f : Flags => { f with tDone := true }) h.flags }
  store_eq s s' v r hr := by
    rcases hr with rfl | rfl | rfl
    · exact .inr rfl
    · exact .inr rfl
    · exact .inl rfl

theorem pStage_lawful : pStage.Lawful where
  store_writes s v := by
    refine ⟨⟨rfl, fun r hr => ?_, rfl, rfl, rfl⟩, rfl⟩
    cases r with
    | outP | flags => exact absurd (by simp [pStage]) hr
    | _ => rfl
  writes_pipeline r hr := by rcases hr with rfl | rfl <;> simp [pipelineReg, resultReg]
  store_update hr hv := .storeP _ _ hr hv
  ready_eq h := h.fineValid
  value_eq h _ _ _ := h.compP
  store_inputs v h := { h with flags := congrArg (fun f : Flags => { f with pDone := true }) h.flags }
  store_eq s s' v r hr := by
    rcases hr with rfl | rfl
    · exact .inr rfl
    · exact .inl rfl

theorem hStage_lawful : hStage.Lawful where
  store_writes s v := by
    refine ⟨⟨rfl, fun r hr => ?_, rfl, rfl, rfl⟩, rfl⟩
    cases r with
    | outH | flags => exact absurd (by simp [hStage]) hr
    | _ => rfl
  writes_pipeline r hr := by rcases hr with rfl | rfl <;> simp [pipelineReg, resultReg]
  store_update hr hv := .storeH _ _ hr hv
  ready_eq h := h.fineValid
  value_eq h _ _ _ := h.compH
  store_inputs v h := { h with flags := congrArg (fun f : Flags => { f with hDone := true }) h.flags }
  store_eq s s' v r hr := by
    rcases hr with rfl | rfl
    · exact .inr rfl
    · exact .inl rfl

theorem gStage_lawful : gStage.Lawful where
  store_writes s v := by
    refine ⟨⟨rfl, fun r hr => ?_, rfl, rfl, rfl⟩, rfl⟩
    cases r with
    | outG | flags => exact absurd (by simp [gStage]) hr
    | _ => rfl
  writes_pipeline r hr := by rcases hr with rfl | rfl <;> simp [pipelineReg, resultReg]
  store_update _ hv := .storeG _ _ hv
  ready_eq h := h.inputsValid
  value_eq h _ _ _ := h.compG
  store_inputs v h := { h with flags := congrArg (fun f : Flags => { f with gDone := true }) h.flags }
  store_eq s s' v r hr := by
    rcases hr with rfl | rfl
    · exact .inr rfl
    · exact .inl rfl

theorem aqStage_lawful : aqStage.Lawful where
  store_writes s v := by
    refine ⟨⟨rfl, fun r hr => ?_, rfl, rfl, rfl⟩, rfl⟩
    cases r with
    | outAq | flags => exact absurd (by simp [aqStage]) hr
    | _ => rfl
  writes_pipeline r hr := by rcases hr with rfl | rfl <;> simp [pipelineReg, resultReg]
  store_update hr hv := by
    obtain rfl := Option.some.inj hv
    exact .storeAq _ hr
  ready_eq h := h.outputsDone
  value_eq h hs hs' hd := by
    show some (aqBucket _ _) = some (aqBucket _ _)
    rw [h.aqIndex hs hs' hd, h.aqBucket]
  store_inputs v h := { h with flags := congrArg (fun f : Flags => { f with aqDone := true }) h.flags }
  store_eq s s' v r hr := by
    rcases hr with rfl | rfl
    · exact .inr rfl
    · exact .inl rfl

/-! ### The stage commands by their gates and formulas (R240-R250) -/

section
variable {α : Type} {p : Stage α} {s : State}

theorem Stage.Lawful.completes_defined (hp : p.Lawful) {v : α} (hr : p.ready s = true) (hv : p.value s = some v) :
    finish (p.run s) = .next ((p.store s v).complete .ok) ∧
      CompletesOffBus .ok p.writes s ((p.store s v).complete .ok) :=
  ⟨congrArg finish (Stage.run_defined hr hv), (hp.store_writes s v).completes .ok⟩

theorem Stage.completes_undefined (hr : p.ready s = true) (hv : p.value s = none) :
    ∃ t, finish (p.run s) = .next t ∧ CompletesOffBus .compError noReg s t :=
  ⟨_, congrArg finish (Stage.run_undefined hr hv), completes_raise s _⟩

theorem Stage.completes_refused (hr : ¬ p.ready s = true) :
    ∃ t, finish (p.run s) = .next t ∧ CompletesOffBus .sequence noReg s t :=
  ⟨_, congrArg finish (Stage.run_refused hr), completes_raise s _⟩

end

theorem State.coef_eq (s : State) : s.coef = s.params.calDecode (s.calbuf.toList.take s.params.calLen) := rfl

theorem State.compT_eq (s : State) : s.compT = s.params.compT s.coef s.raw.t := rfl

theorem State.compP_eq (s : State) : s.compP = s.params.compP s.coef s.tFine.toInt s.raw.p := rfl

theorem State.compH_eq (s : State) : s.compH = s.params.compH s.coef s.tFine.toInt s.raw.h := rfl

theorem State.compG_eq (s : State) : s.compG = s.params.compG s.coef s.raw.g s.raw.gr := rfl

/-- Settles O48: CMPT by its gate and by COMP_T. -/
theorem cmptWritesTheTemperature : Obligations.CmptWritesTheTemperature := by
  unfold Obligations.CmptWritesTheTemperature
  intro s
  refine ⟨fun hin => ?_, fun hin => ?_⟩
  · have hr : tStage.ready s = true := State.inputsValid_iff.2 hin
    rw [exec_cmpt, ← s.coef_eq, ← s.compT_eq]
    cases hv : s.compT with
    | none => exact Stage.completes_undefined hr hv
    | some v =>
      obtain ⟨hrun, hc⟩ := tStage_lawful.completes_defined hr hv
      exact ⟨_, hrun, hc, rfl, rfl, Flags.toWord_setT _⟩
  · rw [exec_cmpt]
    exact Stage.completes_refused (mt State.inputsValid_iff.1 hin)

/-- Settles O49: CMPP and CMPH by their gate and by COMP_P and COMP_H. -/
theorem cmppAndCmphUseTheFineTemperature : Obligations.CmppAndCmphUseTheFineTemperature := by
  unfold Obligations.CmppAndCmphUseTheFineTemperature
  intro s
  refine ⟨fun hin => ?_, fun hin => ?_, fun hin => ⟨?_, ?_⟩⟩
  · have hr : pStage.ready s = true := State.fineValid_iff.2 hin
    rw [exec_cmpp, ← s.coef_eq, ← s.compP_eq]
    cases hv : s.compP with
    | none => exact Stage.completes_undefined hr hv
    | some v =>
      obtain ⟨hrun, hc⟩ := pStage_lawful.completes_defined hr hv
      exact ⟨_, hrun, hc, rfl, Flags.toWord_setP _⟩
  · have hr : hStage.ready s = true := State.fineValid_iff.2 hin
    rw [exec_cmph, ← s.coef_eq, ← s.compH_eq]
    cases hv : s.compH with
    | none => exact Stage.completes_undefined hr hv
    | some v =>
      obtain ⟨hrun, hc⟩ := hStage_lawful.completes_defined hr hv
      exact ⟨_, hrun, hc, rfl, Flags.toWord_setH _⟩
  · rw [exec_cmpp]
    exact Stage.completes_refused (mt State.fineValid_iff.1 hin)
  · rw [exec_cmph]
    exact Stage.completes_refused (mt State.fineValid_iff.1 hin)

/-- Settles O50: CMPG by its gate and by COMP_G. -/
theorem cmpgWritesTheGasResistance : Obligations.CmpgWritesTheGasResistance := by
  unfold Obligations.CmpgWritesTheGasResistance
  intro s
  refine ⟨fun hin => ?_, fun hin => ?_⟩
  · have hr : gStage.ready s = true := State.inputsValid_iff.2 hin
    rw [exec_cmpg, ← s.coef_eq, ← s.compG_eq]
    cases hv : s.compG with
    | none => exact Stage.completes_undefined hr hv
    | some v =>
      obtain ⟨hrun, hc⟩ := gStage_lawful.completes_defined hr hv
      exact ⟨_, hrun, hc, rfl, Flags.toWord_setG _⟩
  · rw [exec_cmpg]
    exact Stage.completes_refused (mt State.inputsValid_iff.1 hin)

/-! ### The buckets of the air-quality index (R262) -/

/-- Counting a property over the first `n` elements of a list given by its elements. -/
theorem countP_take_ofFn {α : Type} {m : Nat} (f : Fin m → α) (q : α → Prop) [DecidablePred q] (n : Nat) :
    ((List.ofFn f).take n).countP (fun a => decide (q a)) =
      (Finset.univ.filter (fun i : Fin m => i.val < n ∧ q (f i))).card := by
  induction m generalizing n with
  | zero => simp
  | succ m ih =>
    cases n with
    | zero => simp
    | succ n =>
      rw [List.ofFn_succ, List.take_succ_cons, List.countP_cons, ih, Fin.card_filter_univ_succ]
      by_cases hq : q (f 0) <;> simp [hq]

theorem toList_eq_ofFn {α : Type} {n : Nat} (v : Vector α n) : v.toList = List.ofFn (fun i : Fin n => v[i]) :=
  List.ext_getElem (by simp) (by simp)

/-- The boundaries in use that `x` reaches. -/
def CfgRegs.reached (c : CfgRegs) (x : Word) : Finset (Fin 7) :=
  Finset.univ.filter (fun i : Fin 7 => i.val < c.aqn.toNat ∧ c.aqb[i] ≤ x)

section
variable {c : CfgRegs}

theorem CfgRegs.mem_reached {x : Word} {i : Fin 7} : i ∈ c.reached x ↔ i.val < c.aqn.toNat ∧ c.aqb[i] ≤ x := by
  simp [CfgRegs.reached]

theorem aqBucket_eq_card (x : Word) : aqBucket c x = (c.reached x).card := by
  rw [aqBucket, toList_eq_ofFn]
  exact countP_take_ofFn (fun i : Fin 7 => c.aqb[i]) (· ≤ x) c.aqn.toNat

theorem aqBucket_mono {x y : Word} (h : x ≤ y) : aqBucket c x ≤ aqBucket c y := by
  rw [aqBucket_eq_card, aqBucket_eq_card]
  refine Finset.card_le_card fun i hi => ?_
  obtain ⟨huse, hle⟩ := CfgRegs.mem_reached.1 hi
  exact CfgRegs.mem_reached.2 ⟨huse, BitVec.le_trans hle h⟩

section
variable (hinc : ∀ i j : Fin 7, i < j → j.val < c.aqn.toNat → c.aqb[i] ≤ c.aqb[j]) {x : Word} {i : Fin 7}
include hinc

/-- Boundaries in increasing order: those above one that is not reached are not reached. -/
theorem aqBucket_le_of_lt (hx : x < c.aqb[i]) : aqBucket c x ≤ i.val := by
  have hsub : c.reached x ⊆ Finset.Iio i := by
    intro j hj
    obtain ⟨huse, hle⟩ := CfgRegs.mem_reached.1 hj
    by_contra hij
    rcases (le_of_not_gt (mt Finset.mem_Iio.2 hij)).lt_or_eq with hlt | rfl
    · exact absurd (BitVec.le_trans (hinc i j hlt huse) hle) (BitVec.not_le.2 hx)
    · exact absurd hle (BitVec.not_le.2 hx)
  rw [aqBucket_eq_card, ← Fin.card_Iio]
  exact Finset.card_le_card hsub

/-- Boundaries in increasing order: those below a reached one are reached. -/
theorem lt_aqBucket_of_le (hi : i.val < c.aqn.toNat) (hx : c.aqb[i] ≤ x) : i.val < aqBucket c x := by
  have hsub : Finset.Iic i ⊆ c.reached x := by
    intro j hj
    rcases (Finset.mem_Iic.1 hj).lt_or_eq with hlt | rfl
    · exact CfgRegs.mem_reached.2 ⟨lt_trans hlt hi, BitVec.le_trans (hinc j i hlt hi) hx⟩
    · exact CfgRegs.mem_reached.2 ⟨hi, hx⟩
  rw [aqBucket_eq_card, Nat.lt_iff_add_one_le, ← Fin.card_Iic]
  exact Finset.card_le_card hsub

end

end

/-- Settles O54: the bucket is the number of boundaries reached, a set that grows with the index and, where the boundaries
increase, is an initial run of them. -/
theorem airQualityBucketingIsMonotonic : Obligations.AirQualityBucketingIsMonotonic := by
  unfold Obligations.AirQualityBucketingIsMonotonic
  intro c
  refine ⟨fun x => ⟨aqBucket_eq_card x, Nat.le_of_lt_succ (aqBucket_lt c x)⟩, fun x y => aqBucket_mono,
    fun hinc x i hi => ⟨fun hk => ?_, fun hk => ?_⟩⟩
  · by_contra hx
    have hle := aqBucket_le_of_lt hinc (BitVec.not_le.1 hx)
    omega
  · by_contra hx
    have hlt := lt_aqBucket_of_le hinc hi (BitVec.not_lt.1 hx)
    omega

/-! ### CMPAQ (R252, R253) -/

/-- OUT_AQ's three bits hold any bucket. -/
theorem toNat_readReg_storeAq (s : State) : (readReg s.storeAq .outAq).toNat = aqBucket s.cfg s.aqIndex := by
  have hlt := aqBucket_lt s.cfg s.aqIndex
  show ((BitVec.ofNat 3 _).zeroExtend 32).toNat = _
  rw [BitVec.zeroExtend, BitVec.toNat_setWidth, BitVec.toNat_ofNat]
  omega

/-- Settles O51: CMPAQ by its gate. -/
theorem cmpaqCountsTheBoundaries : Obligations.CmpaqCountsTheBoundaries := by
  unfold Obligations.CmpaqCountsTheBoundaries
  intro s
  refine ⟨fun hin => ?_, fun hin => ?_⟩
  · have hr : aqStage.ready s = true := State.outputsDone_iff.2 hin
    obtain ⟨hrun, hc⟩ := aqStage_lawful.completes_defined hr rfl
    exact ⟨_, (exec_cmpaq s).trans hrun, hc, (toNat_readReg_storeAq s).trans (aqBucket_eq_card _), Flags.toWord_setAq _⟩
  · rw [exec_cmpaq]
    exact Stage.completes_refused (mt State.outputsDone_iff.1 hin)

/-! ### What each stage leaves of FLAGS, T_FINE, the outputs, and the inputs of later stages -/

section
variable (s : State)

@[simp] theorem State.storeT_flags (tf t : Int) : (s.storeT tf t).flags = { s.flags with tDone := true } := rfl
@[simp] theorem State.storeP_flags (p : Int) : (s.storeP p).flags = { s.flags with pDone := true } := rfl
@[simp] theorem State.storeH_flags (h : Int) : (s.storeH h).flags = { s.flags with hDone := true } := rfl
@[simp] theorem State.storeG_flags (g : Int) : (s.storeG g).flags = { s.flags with gDone := true } := rfl
@[simp] theorem State.storeAq_flags : s.storeAq.flags = { s.flags with aqDone := true } := rfl

@[simp] theorem State.storeT_tFine (tf t : Int) : (s.storeT tf t).tFine = wrap32 tf := rfl
@[simp] theorem State.storeP_tFine (p : Int) : (s.storeP p).tFine = s.tFine := rfl
@[simp] theorem State.storeH_tFine (h : Int) : (s.storeH h).tFine = s.tFine := rfl
@[simp] theorem State.storeG_tFine (g : Int) : (s.storeG g).tFine = s.tFine := rfl
@[simp] theorem State.storeAq_tFine : s.storeAq.tFine = s.tFine := rfl

@[simp] theorem State.storeT_out (tf t : Int) : (s.storeT tf t).out = { s.out with t := wrap32 t } := rfl
@[simp] theorem State.storeP_out (p : Int) : (s.storeP p).out = { s.out with p := wrap32 p } := rfl
@[simp] theorem State.storeH_out (h : Int) : (s.storeH h).out = { s.out with h := wrap32 h } := rfl
@[simp] theorem State.storeG_out (g : Int) : (s.storeG g).out = { s.out with g := wrap32 g } := rfl
@[simp] theorem State.storeAq_out :
    s.storeAq.out = { s.out with aq := BitVec.ofNat 3 (Machine.aqBucket s.cfg s.aqIndex) } := rfl

@[simp] theorem State.storeT_cfg (tf t : Int) : (s.storeT tf t).cfg = s.cfg := rfl
@[simp] theorem State.storeP_cfg (p : Int) : (s.storeP p).cfg = s.cfg := rfl
@[simp] theorem State.storeH_cfg (h : Int) : (s.storeH h).cfg = s.cfg := rfl
@[simp] theorem State.storeG_cfg (g : Int) : (s.storeG g).cfg = s.cfg := rfl

@[simp] theorem State.storeT_params (tf t : Int) : (s.storeT tf t).params = s.params := rfl
@[simp] theorem State.storeP_params (p : Int) : (s.storeP p).params = s.params := rfl
@[simp] theorem State.storeH_params (h : Int) : (s.storeH h).params = s.params := rfl
@[simp] theorem State.storeG_params (g : Int) : (s.storeG g).params = s.params := rfl

theorem State.storeT_compP (tf t : Int) :
    (s.storeT tf t).compP = s.params.compP s.coef (wrap32 tf).toInt s.raw.p := rfl
@[simp] theorem State.storeT_compH (tf t : Int) :
    (s.storeT tf t).compH = s.params.compH s.coef (wrap32 tf).toInt s.raw.h := rfl
@[simp] theorem State.storeP_compH (p : Int) : (s.storeP p).compH = s.compH := rfl
@[simp] theorem State.storeT_compG (tf t : Int) : (s.storeT tf t).compG = s.compG := rfl
@[simp] theorem State.storeP_compG (p : Int) : (s.storeP p).compG = s.compG := rfl
@[simp] theorem State.storeH_compG (h : Int) : (s.storeH h).compG = s.compG := rfl

end

/-! ### CMPALL as the five commands in order (R255, R256) -/

/-- A stage that runs after a completion runs as if there had been none. -/
theorem Stage.Lawful.run_complete {α : Type} {p : Stage α} (hp : p.Lawful) (s : State) (e : ErrCode) :
    p.run (s.complete e) = ((p.run s).1.complete e, (p.run s).2) := by
  have hready := hp.ready_complete s e
  have hvalue := hp.value_complete s e
  by_cases hr : p.ready s = true
  · cases hv : p.value s with
    | none => rw [run_undefined hr hv, run_undefined (hready.trans hr) (hvalue.trans hv)]; rfl
    | some v =>
      rw [run_defined hr hv, run_defined (hready.trans hr) (hvalue.trans hv), hp.store_complete]
      rfl
  · rw [run_refused hr, run_refused (hready ▸ hr)]
    rfl

/-- Of two completions, the second records its code over an OK of the first (R272). -/
theorem State.complete_ok_complete (s : State) (e : ErrCode) : (s.complete .ok).complete e = s.complete e := by
  simp [State.complete]

/-- The commands `is`, up to the first error, after the completion of a command whose pseudocode ended as `r`. -/
def Ended.thenCommands (r : Ended) (is : List Instr) : Host.Outcome State Fault Refusal :=
  if r.2 = .ok then runUntilError is (r.1.complete .ok) else finish r

theorem runUntilError_cons {i : Instr} {s : State} {r : Ended} (h : exec i s = finish r) (is : List Instr) :
    runUntilError (i :: is) s = r.thenCommands is := by
  by_cases hr : r.2 = .ok <;> simp [runUntilError, Ended.thenCommands, h, hr]

theorem Ended.thenCommands_nil (r : Ended) : r.thenCommands [] = finish r := by
  by_cases hr : r.2 = .ok <;> simp [Ended.thenCommands, runUntilError, hr]

/-- A stage's command next in the list is its pseudocode next in CMPALL. -/
theorem Ended.thenCommands_cons {α : Type} {p : Stage α} (hp : p.Lawful) {i : Instr}
    (hexec : ∀ s, exec i s = finish (p.run s)) (r : Ended) (is : List Instr) :
    r.thenCommands (i :: is) = (r.andThen p.run).thenCommands is := by
  by_cases hr : r.2 = .ok
  · rw [Ended.andThen_ok hr, Ended.thenCommands, if_pos hr, runUntilError_cons (hexec _), hp.run_complete]
    simp [Ended.thenCommands, State.complete_ok_complete]
  · rw [Ended.andThen_raised hr, Ended.thenCommands, Ended.thenCommands, if_neg hr, if_neg hr]

/-- Settles O52: stage by stage, the pseudocode of CMPALL is the next command of the list. -/
theorem cmpallRunsTheFiveStages : Obligations.CmpallRunsTheFiveStages := by
  unfold Obligations.CmpallRunsTheFiveStages
  intro s
  rw [exec_cmpall, runUntilError_cons (exec_cmpt s), Ended.thenCommands_cons pStage_lawful exec_cmpp,
    Ended.thenCommands_cons hStage_lawful exec_cmph, Ended.thenCommands_cons gStage_lawful exec_cmpg,
    Ended.thenCommands_cons aqStage_lawful exec_cmpaq, Ended.thenCommands_nil]

/-! ### CMPALL with valid inputs (R255) -/

theorem Ended.done_andThen (s : State) (f : State → Ended) : (done s).andThen f = f s := rfl

theorem Ended.raise_andThen (s : State) {e : ErrCode} (he : e ≠ .ok) (f : State → Ended) :
    (raise s e).andThen f = raise s e := if_neg he

/-- The four outputs stored one after another, each where the one before left them. -/
def State.storeOutputs (s : State) (tf vt vp vh vg : Int) : State :=
  (((s.storeT tf vt).storeP vp).storeH vh).storeG vg

section
variable {s : State} {tf vt vp vh vg : Int}

@[simp] theorem State.storeOutputs_flags :
    (s.storeOutputs tf vt vp vh vg).flags =
      { s.flags with tDone := true, pDone := true, hDone := true, gDone := true } := by
  simp [State.storeOutputs]

@[simp] theorem State.storeOutputs_tFine : (s.storeOutputs tf vt vp vh vg).tFine = wrap32 tf := by
  simp [State.storeOutputs]

@[simp] theorem State.storeOutputs_out :
    (s.storeOutputs tf vt vp vh vg).out =
      { s.out with t := wrap32 vt, p := wrap32 vp, h := wrap32 vh, g := wrap32 vg } := by
  simp [State.storeOutputs]

@[simp] theorem State.storeOutputs_cfg : (s.storeOutputs tf vt vp vh vg).cfg = s.cfg := by
  simp [State.storeOutputs]

@[simp] theorem State.storeOutputs_params : (s.storeOutputs tf vt vp vh vg).params = s.params := by
  simp [State.storeOutputs]

theorem State.storeOutputs_aqIndex :
    (s.storeOutputs tf vt vp vh vg).aqIndex =
      s.params.aqIndex (wrap32 vt).toInt (wrap32 vp) (wrap32 vh) (wrap32 vg) := by
  simp [State.aqIndex, sext32]

theorem exec_cmpall_refused (hin : ¬ s.inputsValid = true) : exec .cmpall s = .next (s.complete .sequence) := by
  have hrun : tStage.run s = raise s .sequence := Stage.run_refused hin
  have hcode : ErrCode.sequence ≠ .ok := by decide
  simp only [exec_cmpall, hrun, Ended.raise_andThen s hcode]
  rfl

/-- No stage writes an input of a later one but T_FINE, which COMP_P and COMP_H read as CMPT stored it (R244). -/
theorem exec_cmpall_defined (hin : s.inputsValid = true) (ht : s.compT = some (tf, vt))
    (hp : s.params.compP s.coef (wrap32 tf).toInt s.raw.p = some vp)
    (hh : s.params.compH s.coef (wrap32 tf).toInt s.raw.h = some vh) (hg : s.compG = some vg) :
    exec .cmpall s = .next ((s.storeOutputs tf vt vp vh vg).storeAq.complete .ok) := by
  obtain ⟨hcal, hraw⟩ := State.inputsValid_iff.1 hin
  have hrunT : tStage.run s = done (s.storeT tf vt) :=
    Stage.run_defined (p := tStage) (v := (tf, vt)) hin ht
  have hrunP : pStage.run (s.storeT tf vt) = done ((s.storeT tf vt).storeP vp) :=
    Stage.run_defined (State.fineValid_iff.2 (by simp [hcal, hraw])) ((s.storeT_compP tf vt).trans hp)
  have hrunH : hStage.run ((s.storeT tf vt).storeP vp) = done (((s.storeT tf vt).storeP vp).storeH vh) :=
    Stage.run_defined (State.fineValid_iff.2 (by simp [hcal, hraw]))
      ((State.storeP_compH _ vp).trans ((s.storeT_compH tf vt).trans hh))
  have hrunG : gStage.run (((s.storeT tf vt).storeP vp).storeH vh) = done (s.storeOutputs tf vt vp vh vg) :=
    Stage.run_defined (State.inputsValid_iff.2 (by simp [hcal, hraw]))
      (((State.storeH_compG _ vh).trans (State.storeP_compG _ vp)).trans ((s.storeT_compG tf vt).trans hg))
  have hdone : (s.storeOutputs tf vt vp vh vg).outputsDone = true := by simp [State.outputsDone]
  have hrunAq : aqStage.run (s.storeOutputs tf vt vp vh vg) = done (s.storeOutputs tf vt vp vh vg).storeAq :=
    Stage.run_defined (p := aqStage) hdone rfl
  simp only [exec_cmpall, hrunT, hrunP, hrunH, hrunG, hrunAq, Ended.done_andThen]
  rfl

theorem Stage.Lawful.store_pipeline {α : Type} {p : Stage α} (hp : p.Lawful) (s : State) (v : α) :
    WritesOffBus pipelineReg s (p.store s v) :=
  (hp.store_writes s v).mono hp.writes_pipeline

theorem storeReading_writes : WritesOffBus pipelineReg s (s.storeOutputs tf vt vp vh vg).storeAq :=
  ((((tStage_lawful.store_pipeline s (tf, vt)).trans (pStage_lawful.store_pipeline _ vp)).trans
    (hStage_lawful.store_pipeline _ vh)).trans (gStage_lawful.store_pipeline _ vg)).trans
    (aqStage_lawful.store_pipeline _ _)

/-- With the inputs valid and every stage done, all seven flags stand (R29). -/
theorem readReg_storeReading_flags (hin : s.inputsValid = true) :
    readReg (s.storeOutputs tf vt vp vh vg).storeAq .flags = 0x7F := by
  obtain ⟨hcal, hraw⟩ := State.inputsValid_iff.1 hin
  simp only [readReg, State.storeAq_flags, State.storeOutputs_flags, hcal, hraw]
  decide

end

/-- Settles O53: the five stages one after another, each on what the one before left. -/
theorem cmpallWritesTheReading : Obligations.CmpallWritesTheReading := by
  unfold Obligations.CmpallWritesTheReading
  intro s
  refine ⟨fun hin tf vt vp vh vg ht hp hh hg => ?_, fun hin => ?_⟩
  · have hr := State.inputsValid_iff.2 hin
    refine ⟨_, exec_cmpall_defined hr ht hp hh hg, (storeReading_writes.completes .ok).mono fun r hr => ?_, ?_⟩
    · simpa only [pipelineReg, resultReg, or_assoc] using hr
    simp only [readReg_complete, ne_eq, reduceCtorEq, not_false_eq_true, readReg_storeReading_flags hr,
      toNat_readReg_storeAq, State.storeOutputs_cfg, State.storeOutputs_aqIndex]
    simp only [readReg, State.complete_out, State.storeAq_out, State.storeAq_tFine, State.storeOutputs_out,
      State.storeOutputs_tFine]
    exact ⟨rfl, rfl, rfl, rfl, rfl, trivial, aqBucket_eq_card _⟩
  · exact ⟨_, exec_cmpall_refused (mt State.inputsValid_iff.1 hin), completes_raise s _⟩

/-! ### Determinism (R239) -/

/-- Between `s`, `s'` and `t`, `t'` each result was left equal in both runs, or alone in both. -/
def ResultsAlike (s s' t t' : State) : Prop :=
  ∀ r, resultReg r → readReg t r = readReg t' r ∨ (readReg t r = readReg s r ∧ readReg t' r = readReg s' r)

theorem ResultsAlike.trans {s s' t t' u u' : State} (h : ResultsAlike s s' t t') (h' : ResultsAlike t t' u u') :
    ResultsAlike s s' u u' := by
  intro r hr
  rcases h' r hr with heq | ⟨hkeep, hkeep'⟩
  · exact .inl heq
  · rw [hkeep, hkeep']
    exact h r hr

/-- Pseudocode run from `s` and from `s'` ended as `r` and as `r'`: with one code, and alike in all that R239 speaks of. -/
structure RunsAlike (s s' : State) (r r' : Ended) : Prop where
  code : r.2 = r'.2
  inputs : SameInputs r.1 r'.1
  current : r.1.Current
  current' : r'.1.Current
  results : ResultsAlike s s' r.1 r'.1
  writes : WritesOffBus pipelineReg s r.1
  writes' : WritesOffBus pipelineReg s' r'.1

section
variable {s s' : State} (h : SameInputs s s') (hs : s.Current) (hs' : s'.Current)
include h hs hs'

theorem runsAlike_raise (e : ErrCode) : RunsAlike s s' (raise s e) (raise s' e) :=
  ⟨rfl, h, hs, hs', fun _ _ => .inr ⟨rfl, rfl⟩, .refl _ s, .refl _ s'⟩

/-- Both runs pass or fail the gate, both find the formula undefined or with one value, and both store it. -/
theorem Stage.Lawful.runsAlike {α : Type} {p : Stage α} (hp : p.Lawful) : RunsAlike s s' (p.run s) (p.run s') := by
  have hready := hp.ready_eq h
  by_cases hr : p.ready s = true
  · have hr' := hready.symm.trans hr
    have hvalue := hp.value_eq h hs hs' hr
    cases hv : p.value s with
    | none =>
      rw [run_undefined hr hv, run_undefined hr' (hvalue.symm.trans hv)]
      exact runsAlike_raise h hs hs' _
    | some v =>
      have hv' := hvalue.symm.trans hv
      rw [run_defined hr hv, run_defined hr' hv']
      exact
        { code := rfl
          inputs := hp.store_inputs v h
          current := (hp.store_update hr hv).current hs
          current' := (hp.store_update hr' hv').current hs'
          results := fun r _ => by
            by_cases hW : p.writes r
            · rcases hp.store_eq s s' v r hW with rfl | heq
              · exact .inl (congrArg Flags.toWord (hp.store_inputs v h).flags)
              · exact .inl heq
            · exact .inr ⟨(hp.store_writes s v).readReg_eq hW, (hp.store_writes s' v).readReg_eq hW⟩
          writes := hp.store_pipeline s v
          writes' := hp.store_pipeline s' v }
  · rw [run_refused hr, run_refused (hready ▸ hr)]
    exact runsAlike_raise h hs hs' _

end

section
variable {s s' : State} {r r' : Ended} (h : RunsAlike s s' r r')
include h

/-- A further stage runs in both or in neither. -/
theorem RunsAlike.andThen {α : Type} {p : Stage α} (hp : p.Lawful) :
    RunsAlike s s' (r.andThen p.run) (r'.andThen p.run) := by
  by_cases hr : r.2 = .ok
  · have hstage := hp.runsAlike h.inputs h.current h.current'
    rw [Ended.andThen_ok hr, Ended.andThen_ok (h.code.symm.trans hr)]
    exact
      { hstage with
        results := h.results.trans hstage.results
        writes := h.writes.trans hstage.writes
        writes' := h.writes'.trans hstage.writes' }
  · rwa [Ended.andThen_raised hr, Ended.andThen_raised (h.code ▸ hr)]

/-- Completion adds ERR and ERRMASK, which are no results. -/
theorem RunsAlike.results_complete : ResultsAlike s s' (r.1.complete r.2) (r'.1.complete r'.2) := by
  intro x hx
  have hnot : x ≠ .err ∧ x ≠ .errmask := by rcases hx with rfl | rfl | rfl | rfl | rfl | rfl <;> simp
  obtain ⟨herr, hmask⟩ := hnot
  rw [readReg_complete _ _ _ herr hmask, readReg_complete _ _ _ herr hmask]
  exact h.results x hx

end

/-- A compensation command is pseudocode that runs alike on equal inputs. -/
theorem exec_runsAlike {i : Instr} (hi : compensationCommand i) {s s' : State} (h : SameInputs s s') (hs : s.Current)
    (hs' : s'.Current) : ∃ r r', exec i s = finish r ∧ exec i s' = finish r' ∧ RunsAlike s s' r r' := by
  have htemp := tStage_lawful.runsAlike h hs hs'
  rcases hi with rfl | rfl | rfl | rfl | rfl | rfl
  · exact ⟨_, _, exec_cmpt s, exec_cmpt s', htemp⟩
  · exact ⟨_, _, exec_cmpp s, exec_cmpp s', pStage_lawful.runsAlike h hs hs'⟩
  · exact ⟨_, _, exec_cmph s, exec_cmph s', hStage_lawful.runsAlike h hs hs'⟩
  · exact ⟨_, _, exec_cmpg s, exec_cmpg s', gStage_lawful.runsAlike h hs hs'⟩
  · exact ⟨_, _, exec_cmpaq s, exec_cmpaq s', aqStage_lawful.runsAlike h hs hs'⟩
  · exact ⟨_, _, exec_cmpall s, exec_cmpall s',
      (((htemp.andThen pStage_lawful).andThen hStage_lawful).andThen gStage_lawful).andThen aqStage_lawful⟩

theorem take_toList_eq {α : Type} {m n : Nat} {v v' : Vector α m} (h : ∀ k : Fin m, k.val < n → v[k] = v'[k]) :
    v.toList.take n = v'.toList.take n := by
  refine List.ext_getElem (by simp) fun k hk _ => ?_
  obtain ⟨hkn, hkm⟩ : k < n ∧ k < m := by simpa using hk
  simpa using h ⟨k, hkm⟩ hkn

/-- Settles O55: the two runs take the same way through the gates and formulas, stage by stage. -/
theorem compensationIsDeterministic : Obligations.CompensationIsDeterministic := by
  unfold Obligations.CompensationIsDeterministic
  intro i s s' hi hs hs' hsel hcal hraw hfine hflags haqb haqn
  obtain ⟨r, r', hexec, hexec', hruns⟩ := exec_runsAlike hi
    ⟨hsel, take_toList_eq hcal, hraw, hfine, hflags, haqb, haqn⟩ hs hs'
  exact ⟨_, _, hexec, hexec', hruns.code, hruns.inputs.flags, hruns.results_complete, hruns.writes.completes _,
    hruns.writes'.completes _⟩

end Sys2Proof.Machine

/-! PROOF. Steps and completion (R80, R270-R284): every step goes on and takes exactly the first pending access, and every
command completes with one code, which ERR holds and ERRMASK records. -/

namespace Sys2Proof.Machine

/-! ### What a step takes from the host port (R80, R273, R284) -/

theorem step_isNext (s : State) : ∃ t, step s = .next t := by
  obtain ⟨t, ht, -⟩ := step_updates s
  exact ⟨t, ht⟩

/-- The answer to an access leaves the later accesses as the host made them. -/
theorem step_port {s t : State} {op : PortOp} {rest : List PortOp} (hp : s.port = op :: rest) (h : step s = .next t) :
    t.port = rest := by
  cases op with
  | issue w =>
    rw [step_issue hp] at h
    obtain ⟨-, hport, -⟩ := (runWord_completesInside w (s.setPort rest)).sameOutside h
    exact hport
  | read idx =>
    rw [step_read hp] at h
    cases h
    rfl
  | write idx v =>
    rw [step_write hp] at h
    cases h
    obtain ⟨-, hport, -⟩ := hostWrite_sameOutside (s.setPort rest) idx v
    exact hport
  | reset =>
    rw [step_reset hp] at h
    cases h
    rfl
  | harness op =>
    rw [step_harness hp] at h
    cases h
    rfl

/-- Settles O6: single updates lead from any state to the next one, and the port that is left is read off access by access. -/
theorem everyStepGoesOn : Obligations.EveryStepGoesOn := by
  unfold Obligations.EveryStepGoesOn
  exact ⟨step_isNext, fun _ h => step_idle h, fun _ _ _ _ hp h => step_port hp h⟩

/-! ### Pseudocode that leaves ERRMASK to its completion (R272) -/

/-- The command run from `s` completes, and the code that ERR then holds is recorded as R272 says. -/
def RecordsCode (s : State) (o : Host.Outcome State Fault Refusal) : Prop := ∃ t, o = .next t ∧ Recorded t.err s t

section
variable {s : State}

theorem recordsCode_finish {r : Ended} (h : r.1.errmask = s.errmask) : RecordsCode s (finish r) :=
  ⟨_, rfl, recorded_complete h r.2⟩

theorem recordsCode_of_exec {i : Instr} {u : State} {e : ErrCode} (hexec : exec i s = .next (u.complete e))
    (h : u.errmask = s.errmask) : RecordsCode s (exec i s) :=
  ⟨_, hexec, recorded_complete h e⟩

theorem Stage.Lawful.run_errmask {α : Type} {p : Stage α} (hp : p.Lawful) (s : State) :
    (p.run s).1.errmask = s.errmask := by
  by_cases hr : p.ready s = true
  · cases hv : p.value s with
    | none => rw [run_undefined hr hv, raise_eq]
    | some v =>
      obtain ⟨⟨hmask, -⟩, -⟩ := hp.store_writes s v
      rw [run_defined hr hv, done_eq, hmask]
  · rw [run_refused hr, raise_eq]

theorem Stage.Lawful.andThen_errmask {α : Type} {p : Stage α} (hp : p.Lawful) {r : Ended} (hr : r.1.errmask = s.errmask) :
    (r.andThen p.run).1.errmask = s.errmask := by
  by_cases h : r.2 = .ok
  · rw [Ended.andThen_ok h, hp.run_errmask, hr]
  · rw [Ended.andThen_raised h, hr]

/-! ### Every command records its code (R270, R272) -/

/-- PUT writes ERRMASK only at its own index. -/
theorem exec_put_recordsCode {idx : BitVec 8} (rs : GReg) (h : idx ≠ 0x09) : RecordsCode s (exec (.put idx rs) s) := by
  simp only [exec, execPut]
  split
  · exact recordsCode_finish rfl
  · next r hr =>
    split
    · exact recordsCode_finish rfl
    · have hmask : r ≠ .errmask := by
        rintro rfl
        exact h (Reg.index_of_ofIndex hr).symm
      exact recordsCode_finish (writeReg_errmask s r _ hmask)

theorem exec_rtcset_recordsCode : RecordsCode s (exec .rtcset s) := by
  obtain ⟨t, hexec, hout⟩ := exec_rtcset_outcome s
  cases hout with
  | refused | outOfRange => exact recordsCode_of_exec hexec rfl
  | busFailure | differs | confirmed => exact recordsCode_of_exec hexec (State.afterRtcset_errmask ..)

theorem exec_snsid_recordsCode : RecordsCode s (exec .snsid s) := by
  by_cases hack : ∃ b, s.bus.answer s.idRead = .ack [b]
  · obtain ⟨b, hb⟩ := hack
    by_cases hid : b = s.params.chipIdValue
    · exact recordsCode_of_exec (exec_snsid_identity (hid ▸ hb)) rfl
    · exact recordsCode_of_exec (exec_snsid_mismatch hb hid) rfl
  · exact recordsCode_of_exec (exec_snsid_refused fun b hb => hack ⟨b, hb⟩) rfl

theorem exec_snsrst_recordsCode (hst : s.snsState = .identityChecked) : RecordsCode s (exec .snsrst s) := by
  by_cases hnak : s.bus.answer s.resetWrite = .nak
  · exact recordsCode_of_exec (exec_snsrst_nak hst hnak) rfl
  · exact recordsCode_of_exec (exec_snsrst_acked hst hnak) rfl

theorem exec_snscfg_recordsCode (hst : s.snsState = .reset) : RecordsCode s (exec .snscfg s) := by
  obtain ⟨hmask, -⟩ := writeEach_writesOnly noReg s.params.snsAddr (s.params.cfgWrites s.cfg.sensor) s
  cases hok : s.configured.1 with
  | true => exact recordsCode_of_exec (exec_snscfg_acked hst hok) hmask
  | false => exact recordsCode_of_exec (exec_snscfg_nak hst hok) hmask

theorem exec_snscal_recordsCode (hst : s.snsState = .configured) : RecordsCode s (exec .snscal s) := by
  cases hans : s.bus.answer s.calRead with
  | nak => exact recordsCode_of_exec (exec_snscal_nak hst hans) rfl
  | ack bs =>
    by_cases hlen : bs.length = s.params.calLen
    · exact recordsCode_of_exec (exec_snscal_accepted hst hans hlen) (by simp [State.acceptCal, State.stale])
    · exact recordsCode_of_exec (exec_snscal_short hst hans hlen) rfl

@[simp] theorem State.sampled_errmask (s : State) (b : Bus) (polls : BitVec 8) (bs : List Byte) :
    (s.sampled b polls bs).errmask = s.errmask := by
  simp [State.sampled, State.acceptRaw, State.stale]

@[simp] theorem State.unsampled_errmask (s : State) (b : Bus) (polls : BitVec 8) :
    (s.unsampled b polls).errmask = s.errmask := by
  simp [State.unsampled, State.dropRaw]

theorem exec_snsacq_recordsCode (hst : s.snsState = .ready) : RecordsCode s (exec .snsacq s) := by
  obtain ⟨t, triggers, polls, last, hexec, -, hend⟩ := exec_snsacq_end hst
  cases hend with
  | sampled => exact recordsCode_of_exec hexec (State.sampled_errmask ..)
  | failed => exact recordsCode_of_exec hexec (State.unsampled_errmask ..)

/-- A sensor command out of its state raises Sequence (R191); in it, the bus decides. -/
theorem exec_sensor_recordsCode {i : Instr} {need : SnsState} (hreq : snsRequired i = some need) :
    RecordsCode s (exec i s) := by
  by_cases hst : s.snsState = need
  · cases i with
    | snsrst => exact exec_snsrst_recordsCode (hst.trans (Option.some.inj hreq).symm)
    | snscfg => exact exec_snscfg_recordsCode (hst.trans (Option.some.inj hreq).symm)
    | snscal => exact exec_snscal_recordsCode (hst.trans (Option.some.inj hreq).symm)
    | snsacq => exact exec_snsacq_recordsCode (hst.trans (Option.some.inj hreq).symm)
    | _ => contradiction
  · exact recordsCode_of_exec (exec_outOfOrder hreq hst) rfl

theorem exec_cmpall_recordsCode : RecordsCode s (exec .cmpall s) := by
  rw [exec_cmpall]
  exact recordsCode_finish <| aqStage_lawful.andThen_errmask <| gStage_lawful.andThen_errmask <|
    hStage_lawful.andThen_errmask <| pStage_lawful.andThen_errmask <| tStage_lawful.run_errmask s

theorem exec_recordsCode {i : Instr} (h : ∀ rs, i ≠ .put 0x09 rs) : RecordsCode s (exec i s) := by
  cases i with
  | nop | ldi | lui | tvalid | tunpack => exact recordsCode_finish rfl
  | put idx rs => exact exec_put_recordsCode rs fun hidx => h rs (hidx ▸ rfl)
  | rtcset => exact exec_rtcset_recordsCode
  | snsid => exact exec_snsid_recordsCode
  | snsrst | snscfg | snscal | snsacq => exact exec_sensor_recordsCode rfl
  | cmpt => exact exec_cmpt s ▸ recordsCode_finish (tStage_lawful.run_errmask s)
  | cmpp => exact exec_cmpp s ▸ recordsCode_finish (pStage_lawful.run_errmask s)
  | cmph => exact exec_cmph s ▸ recordsCode_finish (hStage_lawful.run_errmask s)
  | cmpg => exact exec_cmpg s ▸ recordsCode_finish (gStage_lawful.run_errmask s)
  | cmpaq => exact exec_cmpaq s ▸ recordsCode_finish (aqStage_lawful.run_errmask s)
  | cmpall => exact exec_cmpall_recordsCode
  | get rd idx =>
    simp only [exec, execGet]
    split <;> exact recordsCode_finish rfl
  | bcdenc rd rs =>
    simp only [exec, execBcdenc]
    split <;> exact recordsCode_finish rfl
  | bcddec rd rs =>
    simp only [exec, execBcddec]
    split <;> exact recordsCode_finish rfl
  | wday rd =>
    simp only [exec, execWday]
    split <;> exact recordsCode_finish rfl
  | tpack =>
    simp only [exec, execTpack]
    split
    · exact recordsCode_finish (State.storeBuf_errmask s 0 _)
    · exact recordsCode_finish rfl
  | rtcrd =>
    simp only [exec, execRtcrd]
    split <;> exact recordsCode_finish rfl
  | i2cwr addr reg len =>
    simp only [exec, execI2cwr]
    split
    · split <;> exact recordsCode_finish rfl
    · exact recordsCode_finish rfl
  | i2crd addr reg len =>
    simp only [exec, execI2crd]
    split
    · split <;> exact recordsCode_finish rfl
    · exact recordsCode_finish rfl

end

/-- Settles O7: no pseudocode but that of PUT to ERRMASK writes ERRMASK, so completion alone changes it. -/
theorem completionRecordsTheCode : Obligations.CompletionRecordsTheCode := by
  unfold Obligations.CompletionRecordsTheCode
  exact fun _ _ h => exec_recordsCode h

end Sys2Proof.Machine

/-! PROOF. Reset and bounded bus use (R300, R321): how many transactions a command adds at most and that each is a legal one,
and what the reset state holds. -/

namespace Sys2Proof.Machine

open Sys2Proof.Config (ParamSel Request RegWrite)

/-! ### What the log of a bus has gained -/

/-- `b'` is `b` after at most `n` more transactions, each one that the block may issue (R63-R66). -/
def Bus.GainsAtMost (n : Nat) (b b' : Bus) : Prop :=
  ∃ made, b'.log = made ++ b.log ∧ made.length ≤ n ∧ ∀ x ∈ made, requestLegal x.request

theorem Bus.GainsAtMost.refl (n : Nat) (b : Bus) : b.GainsAtMost n b := ⟨[], rfl, Nat.zero_le n, by simp⟩

theorem Bus.gainsAtMost_after (b : Bus) {q : Request} (h : requestLegal q) : b.GainsAtMost 1 (b.after q) :=
  ⟨[⟨q, b.answer q⟩], b.after_log q, Nat.le_refl 1, by simpa using h⟩

theorem Bus.GainsAtMost.trans {m n : Nat} {b c d : Bus} (hbc : b.GainsAtMost m c) (hcd : c.GainsAtMost n d) :
    b.GainsAtMost (m + n) d := by
  obtain ⟨first, hlog, hlen, hlegal⟩ := hbc
  obtain ⟨later, hlog', hlen', hlegal'⟩ := hcd
  refine ⟨later ++ first, by rw [hlog', hlog, List.append_assoc], by rw [List.length_append]; omega, fun x hx => ?_⟩
  rcases List.mem_append.1 hx with hx | hx
  · exact hlegal' x hx
  · exact hlegal x hx

theorem Bus.GainsAtMost.mono {m n : Nat} {b c : Bus} (h : b.GainsAtMost m c) (hmn : m ≤ n) : b.GainsAtMost n c := by
  obtain ⟨made, hlog, hlen, hlegal⟩ := h
  exact ⟨made, hlog, hlen.trans hmn, hlegal⟩

/-! ### The transactions the block issues are legal (R65, R66) -/

theorem requestLegal_writeByte (a : DevAddr) (r : RegOffset) (v : Byte) : requestLegal (.write a r [v]) :=
  ⟨Nat.le_refl 1, by simp, r.isLt⟩

theorem requestLegal_readByte (a : DevAddr) (r : RegOffset) : requestLegal (.read a r 1) :=
  ⟨Nat.le_refl 1, by decide, r.isLt⟩

theorem requestLegal_timeRead (s : State) : requestLegal s.timeRead :=
  ⟨by decide, by decide, (paramsOf_legal s.paramSel).timeBlock⟩

theorem requestLegal_timeWrite (s : State) :
    requestLegal (.write s.params.rtcAddr s.params.rtcTimeBase (rtcSetBytes s)) := by
  have hfit := (paramsOf_legal s.paramSel).timeBlock
  rw [requestLegal, length_rtcSetBytes]
  exact ⟨by decide, by decide, hfit⟩

theorem requestLegal_calRead (s : State) : requestLegal s.calRead := by
  obtain ⟨hpos, hmost⟩ := (paramsOf_legal s.paramSel).calLen_range
  exact ⟨hpos, hmost, (paramsOf_legal s.paramSel).calBlock⟩

theorem requestLegal_sampleRead (s : State) : requestLegal s.sampleRead := by
  obtain ⟨hpos, hmost⟩ := (paramsOf_legal s.paramSel).rawLen_range
  exact ⟨hpos, hmost.trans (by decide), (paramsOf_legal s.paramSel).rawBlock⟩

/-- The operand check of the bus commands lets only legal reads through (R131). -/
theorem requestLegal_i2crd {reg : RegOffset} {len : Nat} (hop : busOperandsOk reg len = true) (a : DevAddr) :
    requestLegal (.read a reg len) := by
  obtain ⟨hpos, hmost, hfit⟩ := busOperandsOk_iff.1 hop
  exact ⟨hpos, hmost.trans (by decide), hfit⟩

/-- BUF has the `len ≤ 32` bytes that I2CWR sends, so the write moves exactly `len` (R132). -/
theorem requestLegal_i2cwr {reg : RegOffset} {len : Nat} (hop : busOperandsOk reg len = true) (a : DevAddr) (s : State) :
    requestLegal (.write a reg (s.buf.toList.take len)) := by
  obtain ⟨hpos, hmost, hfit⟩ := busOperandsOk_iff.1 hop
  have hlen : (s.buf.toList.take len).length = len := by simpa using hmost
  rw [requestLegal, hlen]
  exact ⟨hpos, hmost.trans (by decide), hfit⟩

/-! ### The shared bus sequences -/

/-- A list of one-byte writes makes at most one transaction for each (R201, R213). -/
theorem writeEach_gains (a : DevAddr) (l : List RegWrite) (s : State) :
    s.bus.GainsAtMost l.length (writeEach a l s).2.bus := by
  induction l generalizing s with
  | nil => exact .refl 0 s.bus
  | cons w l ih =>
    obtain ⟨r, v⟩ := w
    have hfirst : s.bus.GainsAtMost 1 (memWrite s a r [v]).2.bus :=
      s.bus.gainsAtMost_after (requestLegal_writeByte a r v)
    simp only [writeEach]
    split
    · exact (hfirst.trans (ih _)).mono (by simp [Nat.add_comm])
    · exact hfirst.mono (by simp)

theorem writeEach_cfg (a : DevAddr) (l : List RegWrite) (s : State) : (writeEach a l s).2.cfg = s.cfg := by
  rw [(writeEach_spec a l s).1, State.setBus_cfg]

/-- `k` bounded polls make at most `k` status reads (R214). -/
theorem pollReady_gains (k : Nat) (s : State) : s.bus.GainsAtMost k (pollReady k s).2.bus := by
  induction k generalizing s with
  | zero => exact .refl 0 s.bus
  | succ k ih =>
    have hpoll : s.bus.GainsAtMost 1 (memRead s s.params.snsAddr s.params.statusReg 1).2.countPoll.bus :=
      s.bus.gainsAtMost_after (requestLegal_readByte _ _)
    simp only [pollReady]
    split
    · split
      · exact hpoll.mono (by omega)
      · exact (hpoll.trans (ih _)).mono (by omega)
    · exact hpoll.mono (by omega)
    · exact hpoll.mono (by omega)

theorem rtcConfirm_bus (b c : List Byte) (s : State) : (rtcConfirm b c s).1.bus = s.bus := by
  unfold rtcConfirm
  simp only
  split <;> rfl

theorem snsIdentify_bus (id : Byte) (s : State) : (snsIdentify id s).1.bus = s.bus := by
  unfold snsIdentify
  simp only
  split <;> rfl

theorem rtcReread_gains (b : List Byte) (s : State) : s.bus.GainsAtMost 1 (rtcReread b s).1.bus := by
  have hread := s.bus.gainsAtMost_after (requestLegal_timeRead s)
  unfold rtcReread
  simp only
  split
  · rw [rtcConfirm_bus]
    exact hread
  · exact hread
  · exact hread

/-- RTCSET past its checks makes the write and, where that is acknowledged, the re-read (R181). -/
theorem rtcWrite_gains (s : State) : s.bus.GainsAtMost 2 (rtcWrite s).1.bus := by
  have hwrite : s.bus.GainsAtMost 1 (memWrite (rtcStage s) s.params.rtcAddr s.params.rtcTimeBase (rtcSetBytes s)).2.bus :=
    s.bus.gainsAtMost_after (requestLegal_timeWrite s)
  unfold rtcWrite
  simp only
  split
  · exact hwrite.trans (rtcReread_gains _ _)
  · exact hwrite.mono (by decide)

theorem snsReadSample_gains (s : State) : s.bus.GainsAtMost 1 (snsReadSample s).1.bus := by
  have hread := s.bus.gainsAtMost_after (requestLegal_sampleRead s)
  unfold snsReadSample
  simp only
  split <;> exact hread

/-- SNSACQ after its trigger writes: at most CFG_MAXRETRY polls and one sample read (R213, R214). -/
theorem snsPollThenRead_gains (s : State) : s.bus.GainsAtMost (s.cfg.maxRetry.toNat + 1) (snsPollThenRead s).1.bus := by
  have hpolls := pollReady_gains s.cfg.maxRetry.toNat s
  unfold snsPollThenRead
  simp only
  split
  · exact hpolls.trans (snsReadSample_gains _)
  · exact hpolls.mono (by omega)
  · exact hpolls.mono (by omega)

/-! ### Every command stays within its row of R321 -/

/-- The command run from `s` completes, its pseudocode having made at most `n` transactions, each a legal one. -/
def MakesAtMost (n : Nat) (s : State) (o : Host.Outcome State Fault Refusal) : Prop :=
  ∃ r : Ended, o = finish r ∧ s.bus.GainsAtMost n r.1.bus

theorem makesAtMost_finish {n : Nat} {s : State} {r : Ended} (h : s.bus.GainsAtMost n r.1.bus) :
    MakesAtMost n s (finish r) :=
  ⟨r, rfl, h⟩

theorem makesAtMost_raise (n : Nat) (s : State) (e : ErrCode) : MakesAtMost n s (finish (raise s e)) :=
  makesAtMost_finish (.refl n s.bus)

theorem LeavesBus.makesAtMost {s : State} {o : Host.Outcome State Fault Refusal} (h : LeavesBus s o) (n : Nat) :
    MakesAtMost n s o := by
  obtain ⟨r, ho, hbus⟩ := h
  exact ⟨r, ho, hbus ▸ .refl n s.bus⟩

section
variable (s : State)

theorem execI2cwr_makesAtMost (addr : DevAddr) (reg : RegOffset) (len : Nat) :
    MakesAtMost 1 s (execI2cwr addr reg len s) := by
  unfold execI2cwr
  simp only
  split
  · next hop =>
    have hwrite := s.bus.gainsAtMost_after (requestLegal_i2cwr hop addr s)
    split <;> exact makesAtMost_finish hwrite
  · exact makesAtMost_raise 1 s _

theorem execI2crd_makesAtMost (addr : DevAddr) (reg : RegOffset) (len : Nat) :
    MakesAtMost 1 s (execI2crd addr reg len s) := by
  unfold execI2crd
  simp only
  split
  · next hop =>
    have hread := s.bus.gainsAtMost_after (requestLegal_i2crd hop addr)
    split <;> exact makesAtMost_finish hread
  · exact makesAtMost_raise 1 s _

theorem execRtcrd_makesAtMost : MakesAtMost 1 s (execRtcrd s) := by
  have hread := s.bus.gainsAtMost_after (requestLegal_timeRead s)
  unfold execRtcrd
  simp only
  split <;> exact makesAtMost_finish hread

theorem execRtcset_makesAtMost : MakesAtMost 2 s (execRtcset s) := by
  unfold execRtcset
  split
  · split
    · exact makesAtMost_finish (rtcWrite_gains s)
    · exact makesAtMost_raise 2 s _
  · exact makesAtMost_raise 2 s _

theorem execSnsid_makesAtMost : MakesAtMost 1 s (execSnsid s) := by
  have hread := s.bus.gainsAtMost_after (requestLegal_readByte s.params.snsAddr s.params.chipIdReg)
  unfold execSnsid
  simp only
  split
  · exact makesAtMost_finish (by rw [snsIdentify_bus]; exact hread)
  · exact makesAtMost_finish hread
  · exact makesAtMost_finish hread

theorem execSnsrst_makesAtMost : MakesAtMost 1 s (execSnsrst s) := by
  have hwrite := s.bus.gainsAtMost_after
    (requestLegal_writeByte s.params.snsAddr s.params.softResetReg s.params.softResetCmd)
  unfold execSnsrst
  simp only
  split
  · split <;> exact makesAtMost_finish hwrite
  · exact makesAtMost_raise 1 s _

theorem execSnscfg_makesAtMost : MakesAtMost (s.params.cfgWrites s.cfg.sensor).length s (execSnscfg s) := by
  have hwrites := writeEach_gains s.params.snsAddr (s.params.cfgWrites s.cfg.sensor) s
  unfold execSnscfg
  simp only
  split
  · split <;> exact makesAtMost_finish hwrites
  · exact makesAtMost_raise _ s _

theorem execSnscal_makesAtMost : MakesAtMost 1 s (execSnscal s) := by
  have hread := s.bus.gainsAtMost_after (requestLegal_calRead s)
  unfold execSnscal
  simp only
  split
  · split <;> exact makesAtMost_finish hread
  · exact makesAtMost_raise 1 s _

/-- The trigger writes leave CFG_MAXRETRY as it is, so what it holds before the command bounds the polls (R214). -/
theorem execSnsacq_makesAtMost :
    MakesAtMost ((s.params.triggerWrites s.cfg.sensor).length + s.cfg.maxRetry.toNat + 1) s (execSnsacq s) := by
  have hwrites := writeEach_gains s.params.snsAddr (s.params.triggerWrites s.cfg.sensor) (s.setPolls 0)
  have hpolls := snsPollThenRead_gains s.triggered.2
  rw [writeEach_cfg] at hpolls
  unfold execSnsacq
  simp only
  split
  · split
    · exact makesAtMost_finish (hwrites.trans hpolls)
    · exact makesAtMost_finish (hwrites.mono (by omega))
  · exact makesAtMost_raise _ s _

theorem exec_makesAtMost (i : Instr) : MakesAtMost (maxTransactions i s) s (exec i s) := by
  cases i with
  | i2cwr addr reg len => exact execI2cwr_makesAtMost s addr reg len
  | i2crd addr reg len => exact execI2crd_makesAtMost s addr reg len
  | rtcrd => exact execRtcrd_makesAtMost s
  | rtcset => exact execRtcset_makesAtMost s
  | snsid => exact execSnsid_makesAtMost s
  | snsrst => exact execSnsrst_makesAtMost s
  | snscfg => exact execSnscfg_makesAtMost s
  | snscal => exact execSnscal_makesAtMost s
  | snsacq => exact execSnsacq_makesAtMost s
  | _ => exact (exec_leavesBus s rfl).makesAtMost 0

theorem length_cfgWrites_le : (s.params.cfgWrites s.cfg.sensor).length ≤ 16 :=
  ((paramsOf_legal s.paramSel).cfgWrites_length s.cfg.sensor).2

/-- The row of SNSACQ is the largest: 4 trigger writes, 255 polls and a sample read (R321). -/
theorem maxTransactions_le (i : Instr) : maxTransactions i s ≤ 260 := by
  cases i with
  | snscfg => exact (length_cfgWrites_le s).trans (by decide)
  | snsacq =>
    have htriggers : (s.params.triggerWrites s.cfg.sensor).length ≤ 4 :=
      (paramsOf_legal s.paramSel).triggerWrites_length s.cfg.sensor
    have hretry : s.cfg.maxRetry.toNat < 256 := s.cfg.maxRetry.isLt
    simp only [maxTransactions]
    omega
  | _ => simp [maxTransactions]

end

/-- Settles O36: each command's transactions, sequence by sequence, against its row, and the rows against R7. -/
theorem transactionsAreBoundedAndLegal : Obligations.TransactionsAreBoundedAndLegal := by
  unfold Obligations.TransactionsAreBoundedAndLegal
  intro i s
  obtain ⟨r, hexec, made, hlog, hlen, hlegal⟩ := exec_makesAtMost s i
  refine ⟨r.1.complete r.2, made, hexec, hlog, hlen, maxTransactions_le s i, ?_, hlegal⟩
  rintro rfl
  exact length_cfgWrites_le s

/-! ### The reset state (R300) -/

/-- The registers that stand in runs reset to 0, whatever their number in the run (R21). -/
theorem resetValue_runs :
    (∀ i, resetValue (Reg.g i).index = 0) ∧ (∀ i, resetValue (Reg.cfgAqb i).index = 0) ∧
      (∀ i, resetValue (Reg.calbuf i).index = 0) ∧ ∀ i, resetValue (Reg.buf i).index = 0 := by
  refine ⟨?_, ?_, ?_, ?_⟩ <;> decide

/-- The reset state reads at every index what R21 lists. -/
theorem readReg_resetOn (sel : ParamSel) (bus : Bus) (r : Reg) :
    readReg (State.resetOn sel bus) r = resetValue r.index := by
  obtain ⟨hg, haqb, hcalbuf, hbuf⟩ := resetValue_runs
  cases r with
  | g i => rw [hg]; simp [readReg, State.resetOn]
  | cfgAqb i => rw [haqb]; simp [readReg, State.resetOn]
  | calbuf i => rw [hcalbuf]; simp [readReg, State.resetOn]
  | buf i => rw [hbuf]; simp [readReg, State.resetOn]
  | errmask => exact (by decide : ((0 : BitVec 16) &&& 0xFFFE#16).zeroExtend 32 = (0 : Word))
  | flags => exact (by decide : Flags.clear.toWord = 0)
  | _ => rfl

/-- The reset input leaves the registers as a fresh block on the same bus has them: no register reads what surrounds the
block. -/
theorem readReg_resetBlock (s : State) (r : Reg) :
    readReg s.resetBlock r = readReg (State.resetOn s.paramSel s.bus) r := by
  cases r <;> rfl

/-- Settles O9: the registers of a fresh block, index by index, are those the reset input leaves. -/
theorem resetSetsEveryRegister : Obligations.ResetSetsEveryRegister := by
  unfold Obligations.ResetSetsEveryRegister
  refine ⟨fun s rest hp => ⟨(s.setPort rest).resetBlock, step_reset hp, fun r => ?_, rfl, rfl, rfl, rfl, rfl⟩,
    readReg_resetOn _ _, rfl, readReg_resetOn⟩
  rw [readReg_resetBlock, readReg_resetOn]

/-- FLAGS resets to all 0, so no done flag stands that could be stale. -/
theorem resetOn_current (sel : ParamSel) (bus : Bus) : (State.resetOn sel bus).Current :=
  current_of_stale (f := Flags.clear) rfl

theorem resetOn_errmaskLegal (sel : ParamSel) (bus : Bus) : (State.resetOn sel bus).errmaskLegal := by
  intro k _ hbit
  simp [State.resetOn] at hbit

theorem resetOn_retryLegal (sel : ParamSel) (bus : Bus) : (State.resetOn sel bus).retryLegal :=
  (by decide : (10 : BitVec 8) ≠ 0)

theorem resetOn_rtcCoherent (sel : ParamSel) (bus : Bus) : (State.resetOn sel bus).rtcCoherent := .inl rfl

theorem resetOn_snsCoherent (sel : ParamSel) (bus : Bus) : (State.resetOn sel bus).snsCoherent := rfl

theorem Memory.wf_nil : Memory.wf [] := ⟨.nil, nofun⟩

/-- Settles O60: the reset values of R21 against each invariant; the empty MAP is canonical. -/
theorem resetMeetsTheInvariants : Obligations.ResetMeetsTheInvariants := by
  unfold Obligations.ResetMeetsTheInvariants
  refine ⟨fun sel bus => ⟨resetOn_current sel bus, resetOn_errmaskLegal sel bus, resetOn_retryLegal sel bus,
    resetOn_rtcCoherent sel bus, resetOn_snsCoherent sel bus⟩, resetOn_current _ _, Memory.wf_nil⟩

end Sys2Proof.Machine
